-- ==== Sys2Proof/Word.lean ====
section
/-! DEFINITION. The word types of CRC16CF (R8, R10): every one is an unsigned bit vector of the width the spec gives. -/

namespace Sys2Proof

/-- One data item, `BYTE_W` = 8 bits, unsigned (R8). -/
abbrev Byte := BitVec 8

/-- One command word, `CMD_W` = 32 bits (R8, R59). -/
abbrev Word := BitVec 32

/-- The CRC register's width, `CRC_W` = 16 bits (R8, R18). -/
abbrev Crc := BitVec 16

/-- OFFSET, LENGTH and a buffer address, `ADDR_W` = 24 bits (R8, R19, R20, R42). -/
abbrev Addr := BitVec 24

/-- The sequencer's IDX and END and the window arithmetic, 25 bits (R27, R88). -/
abbrev Index := BitVec 25

end Sys2Proof
end

