-- ==== Sys2Proof/Syntax.lean ====
section
/-! DEFINITION. The commands: one constructor per row of spec/opcode_table.json (R62). -/

namespace Sys2Proof

/-- A command. The operand of each row has the width R61 gives it, so that no operand is out of range: a legal word and
nothing else has a command. -/
inductive Instr where
  /-- R96. -/
  | nop
  /-- R80. -/
  | init
  /-- R81: D = w[7:0]. -/
  | byte (d : Byte)
  /-- R82: X = w[0]. -/
  | bit (x : BitVec 1)
  /-- R86: V = w[23:0]. -/
  | setofs (v : Addr)
  /-- R87: V = w[23:0]. -/
  | setlen (v : Addr)
  /-- R89: C = w[0]; 0 is `RUN`, 1 is `RUN.C`. -/
  | run (c : BitVec 1)
  /-- R97. -/
  | clrerr
  deriving DecidableEq, Repr

end Sys2Proof
end

