-- ==== Sys2Proof/WellFormed.lean ====
section
/-! DEFINITION. Well-formedness. An `Instr` carries its operand ranges in its types (R61), so every `Instr` is well
formed. What can be ill formed is a line of the spec's assembly language, whose operands are numbers as written: "an
operand out of its range is an assembly error, not a wrapped value" (R68). -/

namespace Sys2Proof

/-- One source line (R68) or pseudo-instruction (R70), operands as written. -/
inductive SourceLine where
  | nop
  | init
  | byte (d : Nat)
  | bit (x : Nat)
  | setofs (v : Nat)
  | setlen (v : Nat)
  | run
  | runC
  | clrerr
  /-- `.word n`: the only way to write an illegal word (R68). -/
  | word (n : Nat)
  | bytes (ds : List Nat)
  | str (text : List Char)
  | bits8 (d : Nat)
  | win (o n : Nat)
  | crcwin (o n : Nat)
  deriving DecidableEq, Repr

/-- The operand ranges of R68 and R70. -/
def SourceLine.wellFormed : SourceLine → Bool
  | .nop => true
  | .init => true
  | .byte d => d < 2 ^ 8
  | .bit x => x < 2
  | .setofs v => v < 2 ^ 24
  | .setlen v => v < 2 ^ 24
  | .run => true
  | .runC => true
  | .clrerr => true
  | .word n => n < 2 ^ 32
  | .bytes ds => ds.all (· < 2 ^ 8)
  | .str text => text.all (·.toNat < 2 ^ 7)
  | .bits8 d => d < 2 ^ 8
  | .win o n => o < 2 ^ 24 && n < 2 ^ 24
  | .crcwin o n => o < 2 ^ 24 && n < 2 ^ 24

end Sys2Proof
end

