-- ==== Sys2Proof/Decode.lean ====
section
/-! DEFINITION. Decoding, total over all 2^32 words (R63), the encoder from the same table (R60, R62), and the words of
a source line (R68, R70). -/

namespace Sys2Proof

/-- The IMM sub-formats (R60). -/
inductive SubFormat where
  | z
  | b8
  | b1
  | a24
  | r1
  deriving DecidableEq, Repr

/-- Why a word is illegal (R64, R105). Nothing in the machine records it. -/
inductive IllegalCause where
  /-- OPC in 0x08 to 0xFF. -/
  | undefinedOpcode
  /-- A must-be-zero bit of the sub-format is 1. -/
  | reservedBits (f : SubFormat)
  deriving DecidableEq, Repr

/-- What a word decodes to (R63). -/
inductive Decoded where
  | legal (i : Instr)
  | illegal (c : IllegalCause)
  deriving DecidableEq, Repr

/-- OPC = w[31:24] (R59). -/
def opcOf (w : Word) : BitVec 8 := w.extractLsb' 24 8

/-- IMM = w[23:0] (R59). -/
def immOf (w : Word) : BitVec 24 := w.extractLsb' 0 24

/-- D = w[7:0] (R61). -/
def operandD (w : Word) : Byte := w.extractLsb' 0 8

/-- X = w[0], and C = w[0] (R61). -/
def operandBit (w : Word) : BitVec 1 := w.extractLsb' 0 1

/-- V = w[23:0] (R61). -/
def operandV (w : Word) : Addr := w.extractLsb' 0 24

/-- Sub-format Z: all of IMM is 0 (R60). -/
def reservedZero (w : Word) : Bool := immOf w == 0#24

/-- Sub-format B8: IMM[23:8] is 0 (R60). -/
def reservedZeroB8 (w : Word) : Bool := (immOf w).extractLsb' 8 16 == 0#16

/-- Sub-formats B1 and R1: IMM[23:1] is 0 (R60). -/
def reservedZeroBit (w : Word) : Bool := (immOf w).extractLsb' 1 23 == 0#23

/-- Decode(w), in the order R63 writes it. -/
def decode (w : Word) : Decoded :=
  if opcOf w = 0x00#8 then
    if reservedZero w then .legal .nop else .illegal (.reservedBits .z)
  else if opcOf w = 0x01#8 then
    if reservedZero w then .legal .init else .illegal (.reservedBits .z)
  else if opcOf w = 0x02#8 then
    if reservedZeroB8 w then .legal (.byte (operandD w)) else .illegal (.reservedBits .b8)
  else if opcOf w = 0x03#8 then
    if reservedZeroBit w then .legal (.bit (operandBit w)) else .illegal (.reservedBits .b1)
  else if opcOf w = 0x04#8 then .legal (.setofs (operandV w))
  else if opcOf w = 0x05#8 then .legal (.setlen (operandV w))
  else if opcOf w = 0x06#8 then
    if reservedZeroBit w then .legal (.run (operandBit w)) else .illegal (.reservedBits .r1)
  else if opcOf w = 0x07#8 then
    if reservedZero w then .legal .clrerr else .illegal (.reservedBits .z)
  else .illegal .undefinedOpcode

/-- The command of a decoded word, if it is legal. -/
def Decoded.instr : Decoded → Option Instr
  | .legal i => some i
  | .illegal _ => none

/-- The word of a command: its opcode's match bits (R62) with the operand in the low bits (R60, R68). -/
def encode : Instr → Word
  | .nop => 0x00000000#32
  | .init => 0x01000000#32
  | .byte d => 0x02000000#32 ||| d.setWidth 32
  | .bit x => 0x03000000#32 ||| x.setWidth 32
  | .setofs v => 0x04000000#32 ||| v.setWidth 32
  | .setlen v => 0x05000000#32 ||| v.setWidth 32
  | .run c => 0x06000000#32 ||| c.setWidth 32
  | .clrerr => 0x07000000#32

/-- The row's mnemonic in spec/opcode_table.json. -/
def Instr.mnemonic : Instr → String
  | .nop => "NOP"
  | .init => "INIT"
  | .byte _ => "BYTE"
  | .bit _ => "BIT"
  | .setofs _ => "SETOFS"
  | .setlen _ => "SETLEN"
  | .run _ => "RUN"
  | .clrerr => "CLRERR"

/-- A row of the opcode map (R62). -/
structure OpcodeRow where
  mnemonic : String
  sub : SubFormat
  matchBits : Word
  mask : Word
  deriving DecidableEq, Repr

/-- A word selects a row exactly when `(w & mask) == match` (R62). -/
def OpcodeRow.selects (r : OpcodeRow) (w : Word) : Bool := w &&& r.mask == r.matchBits

/-- The opcode map of R62. -/
def opcodeMap : List OpcodeRow := [
  ⟨"NOP", .z, 0x00000000#32, 0xFFFFFFFF#32⟩,
  ⟨"INIT", .z, 0x01000000#32, 0xFFFFFFFF#32⟩,
  ⟨"BYTE", .b8, 0x02000000#32, 0xFFFFFF00#32⟩,
  ⟨"BIT", .b1, 0x03000000#32, 0xFFFFFFFE#32⟩,
  ⟨"SETOFS", .a24, 0x04000000#32, 0xFF000000#32⟩,
  ⟨"SETLEN", .a24, 0x05000000#32, 0xFF000000#32⟩,
  ⟨"RUN", .r1, 0x06000000#32, 0xFFFFFFFE#32⟩,
  ⟨"CLRERR", .z, 0x07000000#32, 0xFFFFFFFF#32⟩]

/-- What the decoder reads from a table row's bits: a command is one 32-bit word (R67), numbered as the table numbers
it (R49: no byte order applies to it). -/
def decodeTableWord (nbits w : Nat) : Option Instr :=
  if nbits ≤ 32 ∧ w < 2 ^ 32 then (decode (BitVec.ofNat 32 w)).instr else none

/-! ### Source lines (R68 to R71) -/

/-- d[7] down to d[0], the order of `BITS8` (R70). -/
def bitsMsbFirst (d : Byte) : List (BitVec 1) :=
  [d.extractLsb' 7 1, d.extractLsb' 6 1, d.extractLsb' 5 1, d.extractLsb' 4 1,
   d.extractLsb' 3 1, d.extractLsb' 2 1, d.extractLsb' 1 1, d.extractLsb' 0 1]

/-- The words of a source line (R68) or of a pseudo-instruction's expansion (R70), operands in range. -/
def SourceLine.words : SourceLine → List Word
  | .nop => [encode .nop]
  | .init => [encode .init]
  | .byte d => [encode (.byte (BitVec.ofNat 8 d))]
  | .bit x => [encode (.bit (BitVec.ofNat 1 x))]
  | .setofs v => [encode (.setofs (BitVec.ofNat 24 v))]
  | .setlen v => [encode (.setlen (BitVec.ofNat 24 v))]
  | .run => [encode (.run 0#1)]
  | .runC => [encode (.run 1#1)]
  | .clrerr => [encode .clrerr]
  | .word n => [BitVec.ofNat 32 n]
  | .bytes ds => ds.map fun d => encode (.byte (BitVec.ofNat 8 d))
  | .str text => text.map fun c => encode (.byte (BitVec.ofNat 8 c.toNat))
  | .bits8 d => (bitsMsbFirst (BitVec.ofNat 8 d)).map fun x => encode (.bit x)
  | .win o n => [encode (.setofs (BitVec.ofNat 24 o)), encode (.setlen (BitVec.ofNat 24 n))]
  | .crcwin o n => [encode (.setofs (BitVec.ofNat 24 o)), encode (.setlen (BitVec.ofNat 24 n)), encode (.run 0#1)]

/-- Assembling a line: an operand out of its range is an error (R68). -/
def SourceLine.assemble (l : SourceLine) : Option (List Word) :=
  if l.wellFormed then some l.words else none

end Sys2Proof
end

