-- ==== Sys2Proof/Config.lean ====
section
/-! DEFINITION. What is fixed for the block (R2, R8), the types of its parameters (R8), and the free values: constants
with no body, of which nothing can be evaluated or proved. -/

namespace Sys2Proof

/-- The parameter DATA_LEN: 0 to 2^24 bytes, both ends legal (R8, R42). -/
abbrev DataLen := Fin 16777217

/-- The parameter DATAPATH: how BYTE and each byte of RUN are built inside the block (R8, R84). -/
inductive Datapath where
  | byteParallel
  | bitSerial
  deriving DecidableEq, Repr, Inhabited

/-- What every register holds in one cycle before the first reset edge (R121): a record left free below. -/
structure Registers where
  crc : Crc
  offset : Addr
  length : Addr
  err : Bool
  busy : Bool
  running : Bool
  idx : Index
  endIdx : Index
  acc : Crc
  bitCount : BitVec 3
  shiftByte : Byte
  memReq : Bool
  deriving DecidableEq, Repr, Inhabited

/-- What every output of R30 shows in one cycle before the first reset edge (R121): a record left free below. -/
structure Outputs where
  cmdReady : Bool
  crcOut : Crc
  busy : Bool
  err : Bool
  memReq : Bool
  memAddr : Addr
  deriving DecidableEq, Repr, Inhabited

namespace Config

/-- POLY (R2, R8). -/
def poly : Crc := 0x1021#16

/-- INIT, the accumulator's initial value (R2, R8). -/
def init : Crc := 0xFFFF#16

/-- The value on `crc_out` while BUSY = 1, one draw a cycle (R122, U1). -/
opaque freeCrcOut : Nat → Crc

/-- The byte read at an index the host changed while the RUN was in progress (R55, R124, U2), and MemRead where R43 does
not define it. -/
opaque freeByte : Nat → Byte

/-- IDX once no RUN is in progress (R27, U4). -/
opaque freeIdx : Nat → Index

/-- END once no RUN is in progress (R27, U4). -/
opaque freeEnd : Nat → Index

/-- The working accumulator once no command is in progress (not architectural: R84, R89). -/
opaque freeAcc : Nat → Crc

/-- The bit counter once no byte is in progress (R28, U4). -/
opaque freeBitCount : Nat → BitVec 3

/-- The byte being shifted in once no byte is in progress (R28, U4). -/
opaque freeShiftByte : Nat → Byte

/-- Every register before the first reset edge, new ones each cycle (R121, U3). -/
opaque freeRegisters : Nat → Registers

/-- Every output before the first reset edge, new ones each cycle (R121, U3). -/
opaque freeOutputs : Nat → Outputs

end Config

end Sys2Proof
end

