-- ==== Sys2Proof/Machine/Datapath.lean ====
section
/-! DEFINITION. The CRC datapath: the update functions of R73, R75 and R77, and the other forms the spec gives of the
same function: the gates and the table of R76, the eight bit steps of R78, the wider working value of R74. -/

namespace Sys2Proof.Machine

/-- Step 2a: the two bytes of the accumulator swapped (R73). -/
def swapBytes (c : Crc) : Crc := c.extractLsb' 0 8 ++ c.extractLsb' 8 8

/-- UpdByte(c, d) (R73). -/
def updByte (c : Crc) (d : Byte) : Crc :=
  let a := swapBytes c
  let b := a ^^^ d.setWidth 16
  let t := b ^^^ (b.extractLsb' 0 8 >>> 4).setWidth 16
  let u := t ^^^ (t <<< 12)
  u ^^^ ((u.extractLsb' 0 8).setWidth 16 <<< 5)

/-- UpdBit(c, x) (R77). -/
def updBit (c : Crc) (x : BitVec 1) : Crc :=
  let fb := c.extractLsb' 15 1 ^^^ x
  let r := c <<< 1
  if fb = 1#1 then r ^^^ Config.poly else r

/-- CrcOf(c, s) (R75). -/
def crcOf (c : Crc) : List Byte → Crc
  | [] => c
  | d :: s => crcOf (updByte c d) s

/-- The source's function `crc16(data, offset, length)` (R75, R91): the CRC of the bytes in `[offset, offset+length)`
clipped to the end of the sequence, on unbounded numbers. -/
def sourceCrc16 (data : List Byte) (offset length : Nat) : Crc :=
  crcOf Config.init ((data.drop offset).take length)

/-- The gate equations of R76, e[0] first. -/
def gateBits (c : Crc) (d : Byte) : List Bool :=
  let f := fun i => (c.extractLsb' 8 8 ^^^ d).getLsbD i
  let c := fun i => c.getLsbD i
  [f 0 ^^ f 4, f 1 ^^ f 5, f 2 ^^ f 6, f 3 ^^ f 7,
   f 4, f 0 ^^ f 4 ^^ f 5, f 1 ^^ f 5 ^^ f 6, f 2 ^^ f 6 ^^ f 7,
   c 0 ^^ f 3 ^^ f 7, c 1 ^^ f 4, c 2 ^^ f 5, c 3 ^^ f 6,
   c 4 ^^ f 0 ^^ f 4 ^^ f 7, c 5 ^^ f 1 ^^ f 5, c 6 ^^ f 2 ^^ f 6, c 7 ^^ f 3 ^^ f 7]

/-- UpdByte as the byte-parallel datapath builds it (R76, R84). -/
def updByteGates (c : Crc) (d : Byte) : Crc := (BitVec.ofBoolListLE (gateBits c d)).setWidth 16

/-- The table entry T[x] of R76. -/
def crcTable (x : Byte) : Crc := updByte 0x0000#16 x

/-- UpdByte through the table (R76). -/
def updByteTable (c : Crc) (d : Byte) : Crc := crcTable (c.extractLsb' 8 8 ^^^ d) ^^^ (c <<< 8)

/-- UpdByte as eight bit updates, bit 7 first (R78). -/
def updByteSerial (c : Crc) (d : Byte) : Crc :=
  updBit (updBit (updBit (updBit (updBit (updBit (updBit (updBit c
    (d.extractLsb' 7 1)) (d.extractLsb' 6 1)) (d.extractLsb' 5 1)) (d.extractLsb' 4 1))
    (d.extractLsb' 3 1)) (d.extractLsb' 2 1)) (d.extractLsb' 1 1)) (d.extractLsb' 0 1)

/-- The source's byte step on a working value of `n` bits, n >= 16, with no mask after step 2d: the low 16 bits are taken
at the next step 2a (R74). -/
def updByteWide {n : Nat} (c : BitVec n) (d : Byte) : BitVec n :=
  let a := (swapBytes (c.setWidth 16)).setWidth n
  let b := a ^^^ d.setWidth n
  let t := b ^^^ ((b &&& 0xFF#n) >>> 4)
  let u := t ^^^ ((t <<< 8) <<< 4)
  u ^^^ (((u &&& 0xFF#n) <<< 4) <<< 1)

/-- The fold of the wide byte step; step 3 takes the low 16 bits of it (R74). -/
def crcOfWide {n : Nat} (c : BitVec n) : List Byte → BitVec n
  | [] => c
  | d :: s => crcOfWide (updByteWide c d) s

end Sys2Proof.Machine
end

