-- ==== Sys2Proof/Machine/State.lean ====
section
/-! DEFINITION. The state of the block, with the host as the second agent beside it (R54), as plain data. -/

namespace Sys2Proof.Machine

/-- The sequencer's PHASE (R27). -/
inductive Phase where
  | idle
  | running
  deriving DecidableEq, Repr

/-- The block's inputs as sampled at one rising edge of `clk` (R30, R31). -/
structure Pins where
  rst : Bool
  cmdValid : Bool
  cmdWord : Word
  memAck : Bool
  memRdata : Byte
  deriving DecidableEq, Repr

/-- What the host does next (R54, R130). -/
inductive HostAction where
  /-- Present `w` with `cmd_valid` and hold it until it is accepted and, where the host's duties are kept, completed: one
  architectural step (R32, R36, R123). -/
  | present (w : Word)
  /-- One rising edge of `clk` with these inputs, whatever they are. -/
  | edge (p : Pins)
  /-- Write one byte of the data buffer (R42, R54). -/
  | write (a : Addr) (b : Byte)
  deriving DecidableEq, Repr

/-- The data buffer's contents: (index, byte) pairs in the canonical form of `Memory.wf`. -/
abbrev Memory := List Host.Cell

/-- What an index that is not listed reads as: the host's buffer before the host has written it.
DESIGN CHOICE (log 3): 0x00. -/
def Memory.unlisted : Byte := 0x00#8

/-- The machine. -/
structure State where
  /-- CRC (R18). -/
  crc : Crc
  /-- OFFSET (R19). -/
  offset : Addr
  /-- LENGTH (R20). -/
  length : Addr
  /-- ERR (R22). -/
  err : Bool
  /-- BUSY (R23). -/
  busy : Bool
  /-- PHASE, hidden (R27). -/
  phase : Phase
  /-- IDX, hidden (R27). -/
  idx : Index
  /-- END, hidden (R27). -/
  endIdx : Index
  /-- `acc` of R89: the accumulator of the command in progress, hidden, so that `crc` changes at completion only (DESIGN
  CHOICE, log 9). -/
  acc : Crc
  /-- The bit counter of DATAPATH = BIT_SERIAL, hidden (R28). It counts up from 0 while a byte is in progress
  (DESIGN CHOICE, log 26), and is kept between the draws of log 7 while none is (DESIGN CHOICE, log 25). -/
  bitCount : BitVec 3
  /-- The byte being shifted in, hidden (R28), shifted left (DESIGN CHOICE, log 26); kept in the same way (DESIGN CHOICE,
  log 25). -/
  shiftByte : Byte
  /-- `mem_req` (R35, R39). -/
  memReq : Bool
  /-- MODEL's own: whether an edge with `rst` = 1 has come since power-up; no rule of the block holds before (R121). -/
  wasReset : Bool
  /-- The configuration's DATA_LEN (R36, R42). -/
  dataLen : DataLen
  /-- The configuration's DATAPATH (R84). -/
  datapath : Datapath
  /-- The configuration's DATA, which the host owns (R36, R42). -/
  data : Memory
  /-- MODEL's own: whether the host keeps its duty to answer every read (R125). -/
  hostAnswers : Bool
  /-- MODEL's own: what the host does next, first action first. -/
  host : List HostAction
  /-- MODEL's own: the indices the host changed during the RUN in progress (R55). -/
  raced : List Nat
  /-- MODEL's own: the `mem_addr` values requested, newest first (R37, R132; log 12), none of them from before the first
  reset edge (log 24). -/
  requests : List Addr
  /-- MODEL's own: how many free values have been drawn. -/
  draws : Nat
  deriving DecidableEq, Repr

/-- Why the machine stops. No command of the opcode table, no word and no edge leads here. -/
inductive Fault where
  /-- The host writes an index at or above DATA_LEN, a byte that does not exist (R42). Raised by the host's own write,
  never by a command. Safe. -/
  | hostWriteOutsideBuffer
  deriving DecidableEq, Repr

/-- Why an instruction is refused. -/
inductive Refusal where
  /-- An instruction without a meaning yet, by its table mnemonic. Raised by `exec`'s refused arms only, of which there is
  none. Safe. -/
  | notModelled (mnemonic : String)
  deriving DecidableEq, Repr

/-- The machine right after reset (R39, R117): the registers as R39 gives them; IDX, END, the bit counter and the shift
byte have no value there, and hold 0 (DESIGN CHOICE, log 1), as does the model's `acc`. The configuration is the host's
(DESIGN CHOICE, log 2 and 3): the largest buffer, nothing listed, DATAPATH = BYTE_PARALLEL; the host does nothing. -/
def State.reset : State where
  crc := Config.init
  offset := 0x000000#24
  length := 0x000000#24
  err := false
  busy := false
  phase := .idle
  idx := 0#25
  endIdx := 0#25
  acc := 0#16
  bitCount := 0#3
  shiftByte := 0#8
  memReq := false
  wasReset := true
  dataLen := 16777216
  datapath := .byteParallel
  data := []
  hostAnswers := true
  host := []
  raced := []
  requests := []
  draws := 0

end Sys2Proof.Machine
end

