-- ==== Sys2Proof/Machine/Flags.lean ====
section
/-! DEFINITION. The two flags: ERR (R22) and BUSY (R23). There are no others, and no computing command sets one (R24). -/

namespace Sys2Proof.Machine

/-- ERR <- 1 (R104). -/
def State.setErr (s : State) : State := { s with err := true }

/-- ERR <- 0 (R97). -/
def State.clearErr (s : State) : State := { s with err := false }

/-- BUSY from the edge that accepts a command taking more than one cycle (R23). -/
def State.raiseBusy (s : State) : State := { s with busy := true }

/-- BUSY from the edge on which the command completes (R23). -/
def State.dropBusy (s : State) : State := { s with busy := false }

end Sys2Proof.Machine
end

