-- ==== Sys2Proof/Machine/Operands.lean ====
section
/-! DEFINITION. What RUN takes its operands from: the effective window (R88) and the starting accumulator (R89). -/

namespace Sys2Proof.Machine

/-- The effective window (R88). -/
structure Window where
  start : Index
  stop : Index
  count : Index
  deriving DecidableEq, Repr

/-- EffWindow(OFFSET, LENGTH, DATA_LEN), in 25-bit unsigned arithmetic (R88). -/
def effWindow (offset length : Addr) (dataLen : DataLen) : Window :=
  let start := offset.setWidth 25
  let lim := offset.setWidth 25 + length.setWidth 25
  let len := BitVec.ofNat 25 dataLen.val
  let stop := if lim < len then lim else len
  let count := if start < stop then stop - start else 0#25
  ⟨start, stop, count⟩

/-- The effective window of the state's registers. -/
def State.window (s : State) : Window := effWindow s.offset s.length s.dataLen

/-- The accumulator a RUN starts from: C = 1 continues from CRC, C = 0 starts from INIT (R89). -/
def State.runSeed (s : State) (c : BitVec 1) : Crc := if c = 1#1 then s.crc else Config.init

end Sys2Proof.Machine
end

