-- ==== Sys2Proof/Machine/Ops.lean ====
section
/-! DEFINITION. The operations that commands and clock edges share: the data buffer, the one exception, the start and the
completion of a command, the sequencer's loop, and the free values. -/

namespace Sys2Proof.Machine

/-! ### The data buffer -/

/-- The byte at an index. -/
def Memory.read : Memory → Nat → Byte
  | [], _ => Memory.unlisted
  | (k, b) :: m, a => if a = k then b else Memory.read m a

/-- The cell put before `m`, unless it holds what an unlisted index reads as. -/
def Memory.place (a : Nat) (b : Byte) (m : Memory) : Memory :=
  if b = Memory.unlisted then m else (a, b) :: m

/-- The buffer with one byte replaced, kept in the canonical form. -/
def Memory.write : Memory → Nat → Byte → Memory
  | [], a, b => Memory.place a b []
  | (k, c) :: m, a, b =>
    if a < k then Memory.place a b ((k, c) :: m)
    else if a = k then Memory.place a b m
    else (k, c) :: Memory.write m a b

/-- The canonical form: indices strictly rising, and no entry equal to what an unlisted index reads as. -/
abbrev Memory.wf (m : Memory) : Prop :=
  m.Pairwise (fun x y => x.1 < y.1) ∧ ∀ x ∈ m, x.2 ≠ Memory.unlisted

/-- MemRead(addr, 1): DATA[addr] for addr < DATA_LEN, and a free value where R43 does not define it, which the block
never reads (R44; log 23). -/
def State.memRead (s : State) (i : Index) : Byte :=
  if i.toNat < s.dataLen.val then Memory.read s.data i.toNat else Config.freeByte s.draws

/-- DATA as the sequence of DATA_LEN bytes that it is (R42). -/
def State.buffer (s : State) : List Byte := (List.range s.dataLen.val).map (Memory.read s.data)

/-- The bytes of a window, first index first (R91). -/
def State.windowBytes (s : State) (start count : Nat) : List Byte :=
  (List.range' start count).map (Memory.read s.data)

/-! ### The one exception -/

/-- `raise IllegalCommand(w)` (R104): ERR <- 1 and nothing else; the word is not recorded. There is no trap (R108), and
the only way back is CLRERR or reset (R109). -/
def raiseIllegalCommand (_w : Word) (s : State) : State := s.setErr

/-- The way back (R97, R109): ERR <- 0. -/
def returnFromIllegalCommand (s : State) : State := s.clearErr

/-! ### Free values -/

/-- A clock cycle passes: the next draws are new ones. -/
def State.tick (s : State) : State := { s with draws := s.draws + 1 }

/-- The registers of a byte in progress have no meaning once none is (R28, U4). -/
def State.releaseByte (s : State) : State :=
  { s with
    acc := Config.freeAcc s.draws
    bitCount := Config.freeBitCount s.draws
    shiftByte := Config.freeShiftByte s.draws
    draws := s.draws + 1 }

/-- IDX and END have no meaning once no RUN is in progress (R27, U4). -/
def State.releaseWindow (s : State) : State :=
  { s with idx := Config.freeIdx s.draws, endIdx := Config.freeEnd s.draws, draws := s.draws + 1 }

/-- The state with its hidden registers and the count of draws put out of sight: two states that agree here agree on
everything a rule of the spec speaks of while BUSY = 0 (R29). -/
def State.forgetHidden (s : State) : State :=
  { s with idx := 0#25, endIdx := 0#25, acc := 0#16, bitCount := 0#3, shiftByte := 0#8, draws := 0 }

/-! ### Starting and completing a command -/

/-- A BYTE completes with CRC = `c`. -/
def State.completeByte (c : Crc) (s : State) : State :=
  State.releaseByte { s.dropBusy with crc := c }

/-- A RUN completes with CRC = `c`: `CRC <- acc; PHASE <- IDLE` (R89). -/
def State.completeRun (c : Crc) (s : State) : State :=
  State.releaseWindow (State.releaseByte
    { s.dropBusy with crc := c, phase := .idle, memReq := false, raced := [] })

/-- Present a read request for `i` on the buffer read port: `mem_addr = i[23:0]` (R35, R43). -/
def State.request (i : Index) (s : State) : State :=
  { s with idx := i, memReq := true, requests := i.setWidth 24 :: s.requests }

/-- A RUN of a window that is not empty starts (R89): BUSY, PHASE, IDX and END, and the first request.
Until its first byte arrives the bit counter and the shift byte (U4) stay as they were: DESIGN CHOICE (log 25). -/
def State.startRun (c : BitVec 1) (s : State) : State :=
  State.request s.window.start
    { s.raiseBusy with phase := .running, endIdx := s.window.stop, acc := s.runSeed c, raced := [] }

/-- A BYTE starts on the bit-serial datapath (R84), with the counter at 0 (DESIGN CHOICE, log 26). -/
def State.startByte (d : Byte) (s : State) : State :=
  { s.raiseBusy with acc := s.crc, bitCount := 0#3, shiftByte := d }

/-- The loop of R89, `fuel` bounding its rounds: `while IDX < END: d <- MemRead(IDX, 1); acc <- UpdByte(acc, d);
IDX <- IDX + 1`. The last argument collects the indices read, newest first. -/
def State.runLoop (s : State) : Nat → Index → Index → Crc → List Addr → Crc × List Addr
  | 0, _, _, acc, reqs => (acc, reqs)
  | fuel + 1, idx, stop, acc, reqs =>
    if idx < stop then
      State.runLoop s fuel (idx + 1#25) stop (updByte acc (s.memRead idx)) (idx.setWidth 24 :: reqs)
    else (acc, reqs)

/-! ### The host and reset -/

/-- Whether an index lies in the window of the RUN in progress. RUN does not change OFFSET, so the window still starts
there. -/
def State.inRunningWindow (s : State) (a : Nat) : Bool :=
  s.busy && s.phase == .running && s.offset.toNat ≤ a && a < s.endIdx.toNat

/-- The host writes DATA[a]. Inside the window of a RUN in progress this breaks its duty, and the index is remembered
(R55, R124). -/
def hostWrite (a : Addr) (b : Byte) (s : State) : Host.Outcome State Fault Refusal :=
  if a.toNat < s.dataLen.val then
    .next { s with
      data := Memory.write s.data a.toNat b
      raced := if s.inRunningWindow a.toNat then a.toNat :: s.raced.filter (· ≠ a.toNat) else s.raced }
  else .fault .hostWriteOutsideBuffer

/-- The byte a well-behaved host answers at index `i`: DATA[i] (R43), or a free value where the host changed it during
the RUN (R55). -/
def State.sampleByte (s : State) (i : Nat) : Byte :=
  if i ∈ s.raced then Config.freeByte s.draws else Memory.read s.data i

/-- A rising edge with `rst` = 1 (R39, R117, R118): whatever the block is doing, every register takes its reset value, and
the hidden ones are without meaning. The configuration and the host are not the block's. -/
def State.resetEdge (s : State) : State :=
  State.releaseWindow (State.releaseByte
    { s with
      crc := Config.init
      offset := 0x000000#24
      length := 0x000000#24
      err := false
      busy := false
      phase := .idle
      memReq := false
      wasReset := true
      raced := [] })

/-! ### Before the first reset -/

/-- A cycle before the first reset edge: every register is a free value, whatever the host does (R121, U3). `mem_req` and
`mem_addr` are unspecified then, and the record of requests takes none of them: DESIGN CHOICE (log 24). -/
def State.unspecified (s : State) : State :=
  { s with
    crc := (Config.freeRegisters s.draws).crc
    offset := (Config.freeRegisters s.draws).offset
    length := (Config.freeRegisters s.draws).length
    err := (Config.freeRegisters s.draws).err
    busy := (Config.freeRegisters s.draws).busy
    phase := if (Config.freeRegisters s.draws).running then .running else .idle
    idx := (Config.freeRegisters s.draws).idx
    endIdx := (Config.freeRegisters s.draws).endIdx
    acc := (Config.freeRegisters s.draws).acc
    bitCount := (Config.freeRegisters s.draws).bitCount
    shiftByte := (Config.freeRegisters s.draws).shiftByte
    memReq := (Config.freeRegisters s.draws).memReq
    draws := s.draws + 1 }

/-- The machine at power-up, in the configuration of State.reset (R121, R130). -/
def State.powerUp : State := State.unspecified { State.reset with wasReset := false }

/-- The states in which a command can be accepted: after reset (R131), with BUSY = 0 (R33, R101). -/
abbrev State.ready (s : State) : Prop := s.wasReset = true ∧ s.busy = false

end Sys2Proof.Machine
end

