-- ==== Sys2Proof/Machine/Control.lean ====
section
/-! DEFINITION. The control commands: NOP and CLRERR (spec/42_control.md). -/

namespace Sys2Proof.Machine

/-- `NOP`: no state changes (R96). -/
def execNop (s : State) : Host.Outcome State Fault Refusal := .next s

/-- `CLRERR`: ERR <- 0 (R97). -/
def execClrerr (s : State) : Host.Outcome State Fault Refusal := .next (returnFromIllegalCommand s)

end Sys2Proof.Machine
end

