-- ==== Sys2Proof/Machine/Crc.lean ====
section
/-! DEFINITION. The CRC datapath commands: INIT, BYTE and BIT (spec/40_crc_datapath.md). -/

namespace Sys2Proof.Machine

/-- `INIT`: CRC <- 0xFFFF (R80). -/
def execInit (s : State) : Host.Outcome State Fault Refusal := .next { s with crc := Config.init }

/-- `BYTE d`: CRC <- UpdByte(CRC, D) (R81). -/
def execByte (d : Byte) (s : State) : Host.Outcome State Fault Refusal :=
  .next (s.completeByte (updByte s.crc d))

/-- `BIT x`: CRC <- UpdBit(CRC, X) (R82). -/
def execBit (x : BitVec 1) (s : State) : Host.Outcome State Fault Refusal :=
  .next { s with crc := updBit s.crc x }

end Sys2Proof.Machine
end

