-- ==== Sys2Proof/Machine/Window.lean ====
section
/-! DEFINITION. The window sequencer's commands: SETOFS, SETLEN and RUN (spec/41_window.md). -/

namespace Sys2Proof.Machine

/-- `SETOFS v`: OFFSET <- V (R86). -/
def execSetofs (v : Addr) (s : State) : Host.Outcome State Fault Refusal := .next { s with offset := v }

/-- `SETLEN v`: LENGTH <- V (R87). -/
def execSetlen (v : Addr) (s : State) : Host.Outcome State Fault Refusal := .next { s with length := v }

/-- `RUN` and `RUN.C` (R89). An empty window makes no read. Otherwise the RUN completes under the host's duty to answer
every read (R125, the fairness assumption of D11); without it the RUN stays in progress, and nothing completes it. -/
def execRun (c : BitVec 1) (s : State) : Host.Outcome State Fault Refusal :=
  if s.window.count = 0#25 ∨ s.hostAnswers = true then
    let result := s.runLoop s.window.count.toNat s.window.start s.window.stop (s.runSeed c) s.requests
    .next { s.completeRun result.1 with requests := result.2 }
  else .next (s.startRun c)

end Sys2Proof.Machine
end

