-- ==== Sys2Proof/Machine/Dispatch.lean ====
section
/-! DEFINITION. One arm per command (R63: Exec(S, w) is the rule of Decode(w) applied to S). -/

namespace Sys2Proof.Machine

def exec (i : Instr) (s : State) : Host.Outcome State Fault Refusal :=
  match i with
  | .nop => Sys2Proof.Machine.execNop s
  | .init => Sys2Proof.Machine.execInit s
  | .byte d => Sys2Proof.Machine.execByte d s
  | .bit x => Sys2Proof.Machine.execBit x s
  | .setofs v => Sys2Proof.Machine.execSetofs v s
  | .setlen v => Sys2Proof.Machine.execSetlen v s
  | .run c => Sys2Proof.Machine.execRun c s
  | .clrerr => Sys2Proof.Machine.execClrerr s

end Sys2Proof.Machine
end

