-- ==== Sys2Proof/Machine/Port.lean ====
section
/-! DEFINITION. The command port: what taking one word does, as one architectural step (R36, R63) and at its accepting
edge (R23, R128). -/

namespace Sys2Proof.Machine

/-- Exec(S, w): the rule of Decode(w) applied to S; ILLEGAL is R104 (R63). A word is taken only when the previous command
has completed (R101): while one is in progress it is not taken (R123), and before reset nothing is specified (R121). -/
def execWord (w : Word) (s : State) : Host.Outcome State Fault Refusal :=
  if s.ready then
    match decode w with
    | .legal i => exec i s
    | .illegal _ => .next (raiseIllegalCommand w s)
  else if s.wasReset then .next s
  else .next s.unspecified

/-- A sequence of words, each seeing the whole effect of every earlier one; behind a command that never completes none is
taken (R101). -/
def execWords : List Word → State → Host.Outcome State Fault Refusal
  | [], s => .next s
  | w :: ws, s =>
    match execWord w s with
    | .next t => execWords ws t
    | .fault r => .fault r
    | .refused r => .refused r

/-- BYTE at its accepting edge: the byte-parallel datapath computes the gates of R76 in that cycle, the bit-serial one
starts eight shifts (R84). -/
def acceptByte (d : Byte) (s : State) : Host.Outcome State Fault Refusal :=
  match s.datapath with
  | .byteParallel => .next (s.completeByte (updByteGates s.crc d))
  | .bitSerial => .next (s.startByte d)

/-- RUN at its accepting edge: an empty window completes there with no read, any other starts the sequencer (R89). -/
def acceptRun (c : BitVec 1) (s : State) : Host.Outcome State Fault Refusal :=
  if s.window.count = 0#25 then exec (.run c) s else .next (s.startRun c)

/-- The accepting edge of a command. All but BYTE and RUN complete on it (R128). -/
def acceptInstr (i : Instr) (s : State) : Host.Outcome State Fault Refusal :=
  match i with
  | .nop => exec .nop s
  | .init => exec .init s
  | .byte d => acceptByte d s
  | .bit x => exec (.bit x) s
  | .setofs v => exec (.setofs v) s
  | .setlen v => exec (.setlen v) s
  | .run c => acceptRun c s
  | .clrerr => exec .clrerr s

/-- The accepting edge of a word: legal or illegal, it is consumed (R64, R102). -/
def acceptWord (w : Word) (s : State) : Host.Outcome State Fault Refusal :=
  match decode w with
  | .legal i => acceptInstr i s
  | .illegal _ => .next (raiseIllegalCommand w s)

end Sys2Proof.Machine
end

