-- ==== Sys2Proof/Machine/Signals.lean ====
section
/-! DEFINITION. The block's outputs (R30, R34, R117): functions of the registers after reset, and free values before
(R121). -/

namespace Sys2Proof.Machine

/-- An output: `v` once the block has been reset, and a free value until then (R121). -/
def State.output {α : Type} (s : State) (v : α) (free : Outputs → α) : α :=
  if s.wasReset then v else free (Config.freeOutputs s.draws)

/-- `cmd_ready` = `~BUSY & ~rst` (R33). -/
def cmdReady (p : Pins) (s : State) : Bool := s.output (!s.busy && !p.rst) Outputs.cmdReady

/-- A command is accepted on an edge with `rst` = 0, `cmd_valid` = 1 and `cmd_ready` = 1 (R32). -/
def commandAccepted (p : Pins) (s : State) : Bool := !p.rst && p.cmdValid && cmdReady p s

/-- `crc_out`: CRC while BUSY = 0, with no final XOR and no reflection (R34, R83); unspecified while BUSY = 1 (R122). -/
def crcOut (s : State) : Crc := s.output (if s.busy then Config.freeCrcOut s.draws else s.crc) Outputs.crcOut

/-- `busy` (R34). -/
def busyOut (s : State) : Bool := s.output s.busy Outputs.busy

/-- `err` (R34). -/
def errOut (s : State) : Bool := s.output s.err Outputs.err

/-- `mem_req`, 0 while `rst` = 1 (R35, R117). -/
def memReqOut (p : Pins) (s : State) : Bool := s.output (s.memReq && !p.rst) Outputs.memReq

/-- `mem_addr` = IDX[23:0] while `mem_req` = 1 (R35, R43), and by DESIGN CHOICE while it is 0 (log 15). -/
def memAddrOut (s : State) : Addr := s.output (s.idx.setWidth 24) Outputs.memAddr

end Sys2Proof.Machine
end

