-- ==== Sys2Proof/Machine/Clock.lean ====
section
/-! DEFINITION. The block at its signals: one rising edge of `clk` (R31), with the command in progress, the buffer read
port and the bit-serial datapath. How many edges a command takes is this design's (R128), and no rule depends on it. -/

namespace Sys2Proof.Machine

/-- A byte of the RUN has been folded in, leaving `acc`: the next index is requested, or the RUN completes (R89, R90).
While the next byte is awaited none is in progress, and the bit counter and the shift byte, which may then hold any value
(U4), keep what the last byte left in them: DESIGN CHOICE (log 25). -/
def State.advance (acc : Crc) (s : State) : State :=
  if s.idx + 1#25 < s.endIdx then State.request (s.idx + 1#25) { s with acc := acc } else s.completeRun acc

/-- The host answers the request with `d` (R35): the byte-parallel datapath folds it in, the bit-serial one starts eight
shifts, with the counter at 0 (DESIGN CHOICE, log 26), and drops `mem_req` meanwhile (R84). -/
def State.takeByte (d : Byte) (s : State) : State :=
  match s.datapath with
  | .byteParallel => s.advance (updByteGates s.acc d)
  | .bitSerial => { s with shiftByte := d, bitCount := 0#3, memReq := false }

/-- All eight bits of a byte are in `acc`: the BYTE completes, or the RUN goes on to its next byte. -/
def State.byteShifted (acc : Crc) (s : State) : State :=
  match s.phase with
  | .idle => s.completeByte acc
  | .running => s.advance acc

/-- One shift of the bit-serial datapath, bit 7 of what is left of the byte (R78, R84). R28 gives the counter's width and
names the byte, no more: that the counter counts up from 0 to 7, and that the shift byte moves left with zeros behind it and
keeps its last bit in place, is a DESIGN CHOICE (log 26). -/
def State.shiftEdge (s : State) : State :=
  let acc := updBit s.acc (s.shiftByte.extractLsb' 7 1)
  if s.bitCount = 7#3 then s.byteShifted acc
  else { s with acc := acc, shiftByte := s.shiftByte <<< 1, bitCount := s.bitCount + 1#3 }

/-- An edge with a command in progress: `mem_ack` counts only while `mem_req` = 1, and a request is held until then
(R35). -/
def State.busyEdge (p : Pins) (s : State) : State :=
  if s.memReq then
    if p.memAck then s.takeByte p.memRdata else s
  else s.shiftEdge

/-- One rising edge of `clk`, in the priority of R107: reset over everything, and before the first one nothing is
specified (R121); then the command in progress, which nothing else interrupts (R33); then a word presented while
`cmd_ready` = 1 (R32). -/
def clockEdge (p : Pins) (s : State) : Host.Outcome State Fault Refusal :=
  if p.rst then .next s.resetEdge
  else if !s.wasReset then .next s.unspecified
  else if s.busy then .next (s.tick.busyEdge p)
  else if commandAccepted p s then acceptWord p.cmdWord s.tick
  else .next s.tick

/-- The inputs of an edge on which the host presents nothing; it answers a pending read where it keeps its duty
(R125, R130). -/
def State.quietPins (s : State) : Pins :=
  { rst := false
    cmdValid := false
    cmdWord := 0#32
    memAck := s.memReq && s.hostAnswers
    memRdata := s.sampleByte s.idx.toNat }

/-- The inputs of an edge on which the host holds the word `w` at the port (R123). -/
def State.holdPins (w : Word) (s : State) : Pins := { s.quietPins with cmdValid := true, cmdWord := w }

/-- Edges with the given inputs, one after the other. -/
def clockEdges : List Pins → State → Host.Outcome State Fault Refusal
  | [], s => .next s
  | p :: ps, s =>
    match clockEdge p s with
    | .next t => clockEdges ps t
    | .fault r => .fault r
    | .refused r => .refused r

/-- Edges until the command in progress completes, or the inputs are used up. -/
def clockUntilIdle : List Pins → State → Host.Outcome State Fault Refusal
  | [], s => .next s
  | p :: ps, s =>
    if s.busy then
      match clockEdge p s with
      | .next t => clockUntilIdle ps t
      | .fault r => .fault r
      | .refused r => .refused r
    else .next s

/-- `n` edges under a host that presents nothing and answers reads. -/
def quietEdges : Nat → State → Host.Outcome State Fault Refusal
  | 0, s => .next s
  | n + 1, s =>
    match clockEdge s.quietPins s with
    | .next t => quietEdges n t
    | .fault r => .fault r
    | .refused r => .refused r

end Sys2Proof.Machine
end

