-- ==== Sys2Proof/Machine/Step.lean ====
section
/-! DEFINITION. One step of the machine. The block has no program counter and fetches nothing (R21, R58): the next command
is the word the host presents. -/

namespace Sys2Proof.Machine

/-- One step: what the host does next. A presented word is one architectural step (R36) when the block can accept it, and
is held while a command is in progress (R123); before the first reset whether it is taken is as free as `cmd_ready`
(R121). With nothing to do the block waits (R120), or goes on with the command in
progress. -/
def step (s : State) : Host.Outcome State Fault Refusal :=
  match s.host with
  | [] => clockEdge s.quietPins s
  | .edge p :: rest => clockEdge p { s with host := rest }
  | .write a b :: rest => hostWrite a b { s with host := rest }
  | .present w :: rest =>
    if s.ready then execWord w { s with host := rest }
    else clockEdge (s.holdPins w)
      (if !s.wasReset && cmdReady (s.holdPins w) s then { s with host := rest } else s)

/-- `s` with the word `w` as what the host presents next, and the port ready to accept it (R33, R131); at reset it is
ready already. -/
def State.withFetchWord (s : State) (_nbits w : Nat) : State :=
  { s with
    busy := false
    phase := .idle
    memReq := false
    wasReset := true
    raced := []
    host := .present (BitVec.ofNat 32 w) :: s.host }

end Sys2Proof.Machine
end

