-- ==== Sys2Proof/Machine/Assembler.lean ====
section
/-! DEFINITION. The assembly language of R68 and R69 as text: one command a line, the mnemonic in capitals and then its
operands; what R68 leaves open of the text's layout is log 14. -/

namespace Sys2Proof.Machine

/-- A token of a source line. -/
inductive Token where
  | word (cs : List Char)
  | chr (c : Char)
  | str (cs : List Char)
  | comma
  deriving DecidableEq, Repr

/-- Where the lexer stands: between tokens, inside a word, or inside a string. -/
inductive LexMode where
  | gap
  | word (acc : List Char)
  | text (acc : List Char)
  deriving DecidableEq, Repr

/-- Blank characters between tokens. -/
def isBlank (c : Char) : Bool := c == ' ' || c == '\t'

/-- The tokens of a line. A comment starts with `;` (R68), a character stands in single quotes (R69), the text of `STR`
in double quotes (R70). Inside either quotes a `;` is the character and starts no comment, as every character there stands
for itself: DESIGN CHOICE, R68 to R70 leave it open (log 14). -/
def lexLine : LexMode → List Char → Option (List Token)
  | .gap, [] => some []
  | .word acc, [] => some [.word acc.reverse]
  | .text _, [] => none
  | .text acc, c :: cs =>
    if c == '"' then (lexLine .gap cs).map (.str acc.reverse :: ·) else lexLine (.text (c :: acc)) cs
  | .gap, '\'' :: c :: '\'' :: cs => (lexLine .gap cs).map (.chr c :: ·)
  | .gap, c :: cs =>
    if c == ';' then some []
    else if c == '\'' then none
    else if c == '"' then lexLine (.text []) cs
    else if isBlank c then lexLine .gap cs
    else if c == ',' then (lexLine .gap cs).map (.comma :: ·)
    else lexLine (.word [c]) cs
  | .word acc, c :: cs =>
    if c == ';' then some [.word acc.reverse]
    else if c == '\'' || c == '"' then none
    else if isBlank c then (lexLine .gap cs).map (.word acc.reverse :: ·)
    else if c == ',' then (lexLine .gap cs).map fun ts => .word acc.reverse :: .comma :: ts
    else lexLine (.word (c :: acc)) cs

/-- The value of one digit. -/
def digitValue (c : Char) : Option Nat :=
  let n := c.toNat
  if 0x30 ≤ n && n ≤ 0x39 then some (n - 0x30)
  else if 0x41 ≤ n && n ≤ 0x46 then some (n - 0x41 + 10)
  else if 0x61 ≤ n && n ≤ 0x66 then some (n - 0x61 + 10)
  else none

/-- Digits in a base, at least one. -/
def digitsValue (base : Nat) : List Char → Option Nat
  | [] => none
  | cs => cs.foldl (fun n c => n.bind fun n => (digitValue c).bind fun d =>
      if d < base then some (n * base + d) else none) (some 0)

/-- A numeric operand: decimal, hexadecimal with `0x`, or a single ASCII character (R69). -/
def numberOf : Token → Option Nat
  | .word ('0' :: 'x' :: cs) => digitsValue 16 cs
  | .word cs => digitsValue 10 cs
  | .chr c => if c.toNat < 2 ^ 7 then some c.toNat else none
  | .str _ => none
  | .comma => none

/-- The operands of a line, separated by commas (R70). -/
def operandTokens : List Token → Option (List Token)
  | [] => some []
  | [t] => some [t]
  | t :: .comma :: u :: ts => (operandTokens (u :: ts)).map (t :: ·)
  | _ => none

/-- A line with no operand. -/
def noOperand (l : SourceLine) (ts : List Token) : Option SourceLine := if ts = [] then some l else none

/-- A line with one numeric operand. -/
def oneOperand (f : Nat → SourceLine) : List Token → Option SourceLine
  | [t] => (numberOf t).map f
  | _ => none

/-- A line with two numeric operands. -/
def twoOperands (f : Nat → Nat → SourceLine) : List Token → Option SourceLine
  | [t, u] => (numberOf t).bind fun m => (numberOf u).map (f m)
  | _ => none

/-- The line of a mnemonic and its operands (R68, R70). -/
def lineOf (m : List Char) (ts : List Token) : Option SourceLine :=
  if m = ['N', 'O', 'P'] then noOperand .nop ts
  else if m = ['I', 'N', 'I', 'T'] then noOperand .init ts
  else if m = ['B', 'Y', 'T', 'E'] then oneOperand .byte ts
  else if m = ['B', 'I', 'T'] then oneOperand .bit ts
  else if m = ['S', 'E', 'T', 'O', 'F', 'S'] then oneOperand .setofs ts
  else if m = ['S', 'E', 'T', 'L', 'E', 'N'] then oneOperand .setlen ts
  else if m = ['R', 'U', 'N'] then noOperand .run ts
  else if m = ['R', 'U', 'N', '.', 'C'] then noOperand .runC ts
  else if m = ['C', 'L', 'R', 'E', 'R', 'R'] then noOperand .clrerr ts
  else if m = ['.', 'w', 'o', 'r', 'd'] then oneOperand .word ts
  else if m = ['B', 'Y', 'T', 'E', 'S'] then if ts = [] then none else (ts.mapM numberOf).map .bytes
  else if m = ['S', 'T', 'R'] then match ts with | [.str cs] => some (.str cs) | _ => none
  else if m = ['B', 'I', 'T', 'S', '8'] then oneOperand .bits8 ts
  else if m = ['W', 'I', 'N'] then twoOperands .win ts
  else if m = ['C', 'R', 'C', 'W', 'I', 'N'] then twoOperands .crcwin ts
  else none

/-- The words of one line of text: none of them for a blank line or a comment; an error is `none`. -/
def assembleText (line : List Char) : Option (List Word) :=
  (lexLine .gap line).bind fun ts =>
    match ts with
    | [] => some []
    | .word m :: rest => (operandTokens rest).bind fun ops => (lineOf m ops).bind SourceLine.assemble
    | _ => none

end Sys2Proof.Machine
end

