-- ==== Sys2Proof/Machine/Observe.lean ====
section
/-! DEFINITION. What R132 observes of a command sequence. The sequence is what the host has pending; it begins with the
first word the port takes. -/

namespace Sys2Proof.Machine

/-- The word the next step takes from the port (R32): the host presents it, or an edge with it comes, and the block is
ready. -/
def State.wordTaken (s : State) : Option Word :=
  if s.wasReset then
    match s.host with
    | .present w :: _ => if s.busy then none else some w
    | .edge p :: _ => if commandAccepted p s then some p.cmdWord else none
    | .write _ _ :: _ => none
    | [] => none
  else none

/-- Whether the next step is an edge with `rst` = 1 (R117). -/
def State.resetTaken (s : State) : Bool :=
  match s.host with
  | .edge p :: _ => p.rst
  | .present _ :: _ => false
  | .write _ _ :: _ => false
  | [] => false

/-- Whether an action has a word at the port. -/
def HostAction.hasWord : HostAction → Bool
  | .present _ => true
  | .edge p => p.cmdValid
  | .write _ _ => false

/-- What R132 observes: `(crc_out, err)` and the buffer indices read, in order. -/
structure Observation where
  crc : Crc
  err : Bool
  indices : List Addr
  deriving DecidableEq, Repr

/-- The observation at the end of a sequence, of which nothing is left to be accepted and no command is in progress; there
is none elsewhere (R132). -/
def State.endObservation (s : State) : Option Observation :=
  if s.ready ∧ s.host.any HostAction.hasWord = false then some ⟨crcOut s, errOut s, s.requests.reverse⟩ else none

/-- The state from which the indices read are counted: at the first word of the sequence none has been. -/
def State.beginSequence (s : State) : State := { s with requests := [] }

/-- The observation after `n` steps of a sequence whose first word has been taken: `rst` stays 0 (R132). -/
def observeBegun : Nat → State → Option Observation
  | 0, s => s.endObservation
  | n + 1, s =>
    if s.resetTaken then none
    else
      match step s with
      | .next t => observeBegun n t
      | .fault _ => none
      | .refused _ => none

/-- The observation of the pending sequence after `n` steps (R132): none before its first word is taken, none while a word
of it is still to be accepted or its last command is in progress, and none if `rst` was 1 since its first word. -/
def observe : Nat → State → Option Observation
  | 0, _ => none
  | n + 1, s =>
    if s.wordTaken.isSome then observeBegun (n + 1) s.beginSequence
    else
      match step s with
      | .next t => observe n t
      | .fault _ => none
      | .refused _ => none

end Sys2Proof.Machine
end

