-- ==== Sys2Proof/Safety.lean ====
section
/-! DEFINITION. What counts as a safe state and a well-behaved host, in the terms the claims use. -/

namespace Sys2Proof.Machine

/-- The states the block can be in after reset, whatever the host does. -/
structure State.Inv (s : State) : Prop where
  /-- An edge with `rst` = 1 has come: no rule holds before (R121, R131). -/
  reset_done : s.wasReset = true
  /-- The buffer's contents are in canonical form. -/
  data_wf : Memory.wf s.data
  /-- DATA has DATA_LEN bytes and no other (R42). -/
  data_bound : ∀ x ∈ s.data, x.1 < s.dataLen.val
  /-- No index at or above DATA_LEN is ever requested (R44). -/
  requests_bound : ∀ a ∈ s.requests, a.toNat < s.dataLen.val
  /-- Whenever BUSY = 0, PHASE = IDLE (R27, R36) and no read is requested (R35). -/
  idle : s.busy = false → s.phase = .idle ∧ s.memReq = false
  /-- With no RUN in progress there is none for the host to disturb. -/
  undisturbed : s.phase = .idle → s.raced = []
  /-- `mem_req` is 1 only while a RUN is in progress (R35). -/
  req_running : s.memReq = true → s.phase = .running
  /-- A RUN in progress is inside its effective window, which the registers still give (R88, R90, R93). -/
  running : s.phase = .running →
    s.offset.toNat ≤ s.idx.toNat ∧ s.idx < s.endIdx ∧ s.endIdx = s.window.stop
  /-- A command in progress with no read outstanding is shifting a byte in (R28, R84). -/
  shifting : s.busy = true → s.memReq = false → s.datapath = .bitSerial
  /-- The indices the host disturbed lie in the window of the RUN in progress (R55). -/
  raced_window : ∀ i ∈ s.raced, s.offset.toNat ≤ i ∧ i < s.endIdx.toNat

/-- An edge on which the host keeps its duties of R124 and R125 as far as one edge can show them: no reset, and a read is
answered with the byte of DATA. -/
def Pins.honest (p : Pins) (s : State) : Prop :=
  p.rst = false ∧ (p.memAck = true → s.memReq = true → p.memRdata = Memory.read s.data s.idx.toNat)

/-- Honest inputs, edge after edge. -/
def honestEdges : List Pins → State → Prop
  | [], _ => True
  | p :: ps, s => p.honest s ∧ ∀ t, clockEdge p s = .next t → honestEdges ps t

/-- The states between two architectural steps: after reset (R131), BUSY = 0 and PHASE = IDLE (R36), no request and no
race. -/
abbrev State.betweenSteps (s : State) : Prop :=
  s.ready ∧ s.phase = .idle ∧ s.memReq = false ∧ s.raced = []

/-- The next step takes the word `w` from the port (R32). -/
def State.takesWord (s : State) (w : Word) : Prop := s.wordTaken = some w

/-- The next step is an edge with `rst` = 1 (R117). -/
def State.takesReset (s : State) : Prop := s.resetTaken = true

/-- The edge `p` presents the word of the command `i`, with no reset (R32). -/
def Pins.presents (p : Pins) (i : Instr) : Prop := p.rst = false ∧ p.cmdValid = true ∧ p.cmdWord = encode i

end Sys2Proof.Machine
end

