-- ==== Sys2Proof/Certificates/Slice0/Obligations.lean ====
section
/-! DEFINITION. The statements, from the spec's numbered rules. `State.forgetHidden` puts out of sight only what has no
meaning while BUSY = 0 (R27 to R29) and the model's count of draws, so an equation under it says what every other field
holds, the buffer included. An equation of whole states speaks of the hidden registers too, and that they are kept where no
rule gives them a value is the model's choice (log 25). `State.betweenSteps` is R36's "between two steps BUSY=0 and PHASE=IDLE". -/

open Sys2Proof Sys2Proof.Machine

/-! ### The commands -/

/-- R96: NOP changes nothing, only the word 0 is NOP, and it takes one handshake. -/
def Obligations.NopCommand : Prop :=
  (∀ s : State, exec .nop s = .next s) ∧
  (∀ w, decode w = .legal .nop ↔ w = 0x00000000#32) ∧
  (∀ w s, s.ready → opcOf w = 0x00#8 → immOf w ≠ 0#24 →
    execWord w s = .next { s with err := true }) ∧
  (∀ (p : Pins) (s : State), p.presents .nop → s.ready →
    clockEdge p s = .next { s with draws := s.draws + 1 })

/-- R97: CLRERR clears ERR and nothing else; with a nonzero IMM it is illegal and sets ERR. -/
def Obligations.ClrerrCommand : Prop :=
  (∀ s : State, exec .clrerr s = .next { s with err := false }) ∧
  (∀ w, decode w = .legal .clrerr ↔ w = 0x07000000#32) ∧
  (∀ w s, s.ready → opcOf w = 0x07#8 → immOf w ≠ 0#24 →
    execWord w s = .next { s with err := true })

/-- R80: INIT writes 0xFFFF to CRC and nothing else, in one step; with a nonzero IMM it is illegal and CRC stays. -/
def Obligations.InitCommand : Prop :=
  (∀ s : State, exec .init s = .next { s with crc := 0xFFFF#16 }) ∧
  (∀ w, decode w = .legal .init ↔ w = 0x01000000#32) ∧
  (∀ w s, s.ready → opcOf w = 0x01#8 → immOf w ≠ 0#24 →
    execWord w s = .next { s with err := true }) ∧
  (∀ (p : Pins) (s : State), p.presents .init → s.ready →
    clockEdge p s = .next { s with crc := 0xFFFF#16, draws := s.draws + 1 })

/-- R81: BYTE folds one byte into CRC and changes nothing else that has a meaning. That it keeps IDX and END, which R27 and
U4 leave open while PHASE = IDLE, is the model's choice (log 25). -/
def Obligations.ByteCommand : Prop :=
  (∀ (d : Byte) (s : State), s.betweenSteps → ∃ t, exec (.byte d) s = .next t ∧
    t.forgetHidden = { s.forgetHidden with crc := updByte s.crc d } ∧ t.idx = s.idx ∧ t.endIdx = s.endIdx) ∧
  (∀ w d, decode w = .legal (.byte d) ↔ w = 0x02000000#32 ||| d.setWidth 32) ∧
  (∀ w s, s.ready → opcOf w = 0x02#8 → w.extractLsb' 8 16 ≠ 0#16 →
    execWord w s = .next { s with err := true }) ∧
  updByte 0x0000#16 0x00#8 = 0x0000#16 ∧ updByte 0xFFFF#16 0xFF#8 = 0xFF00#16 ∧
  updByte 0xFFFF#16 0x80#8 = 0x7078#16 ∧ updByte 0xFFFF#16 0x31#8 = 0xC782#16

/-- R82: BIT folds one bit into CRC and changes nothing else; eight of them, d[7] first, are BYTE d. -/
def Obligations.BitCommand : Prop :=
  (∀ (x : BitVec 1) (s : State), exec (.bit x) s = .next { s with crc := updBit s.crc x }) ∧
  (∀ w x, decode w = .legal (.bit x) ↔ w = 0x03000000#32 ||| x.setWidth 32) ∧
  (∀ w s, s.ready → opcOf w = 0x03#8 → w.extractLsb' 1 23 ≠ 0#23 →
    execWord w s = .next { s with err := true }) ∧
  updBit 0x0000#16 0#1 = 0x0000#16 ∧ updBit 0x0000#16 1#1 = 0x1021#16 ∧ updBit 0x8000#16 1#1 = 0x0000#16 ∧
  updBit 0xFFFF#16 0#1 = 0xEFDF#16 ∧
  (∀ (d : Byte) (s : State), s.betweenSteps → ∃ t u,
    execWords ((bitsMsbFirst d).map fun x => encode (.bit x)) s = .next t ∧ exec (.byte d) s = .next u ∧
    t.forgetHidden = u.forgetHidden)

/-- R86: SETOFS writes OFFSET, unscaled, and nothing else; every word with OPC 0x04 is one. -/
def Obligations.SetofsCommand : Prop :=
  (∀ (v : Addr) (s : State), exec (.setofs v) s = .next { s with offset := v }) ∧
  (∀ w v, decode w = .legal (.setofs v) ↔ w = 0x04000000#32 ||| v.setWidth 32) ∧
  (∀ w, opcOf w = 0x04#8 → decode w = .legal (.setofs (w.extractLsb' 0 24))) ∧
  (∀ (v : Addr) (s : State), s.dataLen.val ≤ v.toNat → (effWindow v s.length s.dataLen).count = 0#25)

/-- R87: SETLEN writes LENGTH and nothing else; every word with OPC 0x05 is one; a length past the end is clipped by
RUN. -/
def Obligations.SetlenCommand : Prop :=
  (∀ (v : Addr) (s : State), exec (.setlen v) s = .next { s with length := v }) ∧
  (∀ w v, decode w = .legal (.setlen v) ↔ w = 0x05000000#32 ||| v.setWidth 32) ∧
  (∀ w, opcOf w = 0x05#8 → decode w = .legal (.setlen (w.extractLsb' 0 24))) ∧
  (∀ s : State, (effWindow s.offset 0#24 s.dataLen).count = 0#25) ∧
  (∀ (v : Addr) (s : State), s.offset.toNat ≤ s.dataLen.val → s.dataLen.val - s.offset.toNat < v.toNat →
    (effWindow s.offset v s.dataLen).count.toNat = s.dataLen.val - s.offset.toNat)

/-- R89 as one architectural step: CRC and the indices read are those of the effective window, nothing else that has a
meaning changes, and an empty window makes no read. `hostAnswers` is the host's duty of R125
(log 5), and the list of requests is kept as log 12 says. -/
def Obligations.RunCommand : Prop :=
  (∀ (c : BitVec 1) (s : State), s.betweenSteps → (s.window.count = 0#25 ∨ s.hostAnswers = true) →
    ∃ t, exec (.run c) s = .next t ∧
      t.forgetHidden = { s.forgetHidden with
        crc := crcOf (if c = 1#1 then s.crc else 0xFFFF#16)
          (s.windowBytes s.window.start.toNat s.window.count.toNat)
        requests := ((List.range' s.window.start.toNat s.window.count.toNat).map (BitVec.ofNat 24)).reverse
          ++ s.requests }) ∧
  (∀ w c, decode w = .legal (.run c) ↔ w = 0x06000000#32 ||| c.setWidth 32) ∧
  (∀ w s, s.ready → opcOf w = 0x06#8 → w.extractLsb' 1 23 ≠ 0#23 →
    execWord w s = .next { s with err := true }) ∧
  (∀ (c : BitVec 1) (s : State), s.window.count = 0#25 →
    ∃ t, exec (.run c) s = .next t ∧ t.crc = (if c = 1#1 then s.crc else 0xFFFF#16) ∧ t.requests = s.requests)

/-! ### The window -/

/-- R88: the effective window is computed without overflow. -/
def Obligations.EffectiveWindow : Prop :=
  ∀ (offset length : Addr) (n : DataLen),
    (effWindow offset length n).start.toNat = offset.toNat ∧
    (effWindow offset length n).stop.toNat = min (offset.toNat + length.toNat) n.val ∧
    (effWindow offset length n).count.toNat =
      (if offset.toNat < min (offset.toNat + length.toNat) n.val
        then min (offset.toNat + length.toNat) n.val - offset.toNat else 0) ∧
    (∀ i, i ∈ List.range' (effWindow offset length n).start.toNat (effWindow offset length n).count.toNat ↔
      offset.toNat ≤ i ∧ i < offset.toNat + length.toNat ∧ i < n.val)

/-- R90: a RUN reads exactly the indices of the effective window, each once, ascending, and none at or above DATA_LEN.
The list of requests is kept as log 12 says. -/
def Obligations.RunReadsWindowOnce : Prop :=
  ∀ (c : BitVec 1) (s : State), (s.window.count = 0#25 ∨ s.hostAnswers = true) →
    ∃ t read, exec (.run c) s = .next t ∧ t.requests.reverse = s.requests.reverse ++ read ∧
      read.map BitVec.toNat = List.range' s.window.start.toNat (s.window.stop.toNat - s.window.start.toNat) ∧
      (∀ a ∈ read, a.toNat < s.dataLen.val) ∧ (s.window.count = 0#25 → read = [])

/-- R91: RUN is the source's function of (data, offset, length), RUN.C continues it, and two windows that meet give the
CRC of their union, all under the host's duty to answer (R125, log 5). -/
def Obligations.RunComputesSourceFunction : Prop :=
  (∀ s : State, s.hostAnswers = true → ∃ t, exec (.run 0#1) s = .next t ∧
    t.crc = sourceCrc16 s.buffer s.offset.toNat s.length.toNat) ∧
  (∀ s : State, s.hostAnswers = true → ∃ t, exec (.run 1#1) s = .next t ∧
    t.crc = crcOf s.crc ((s.buffer.drop s.offset.toNat).take s.length.toNat)) ∧
  (∀ (s : State) (o n m : Nat), s.ready → s.hostAnswers = true → o + n < 2 ^ 24 → m < 2 ^ 24 → o + n ≤ s.dataLen.val →
    ∃ t, execWords
        [encode (.setofs (BitVec.ofNat 24 o)), encode (.setlen (BitVec.ofNat 24 n)), encode (.run 0#1),
         encode (.setofs (BitVec.ofNat 24 (o + n))), encode (.setlen (BitVec.ofNat 24 m)), encode (.run 1#1)] s
        = .next t ∧
      t.crc = sourceCrc16 s.buffer o (n + m))

/-- R92: the clipping cases, with their results for RUN and RUN.C. -/
def Obligations.WindowClipping : Prop :=
  (∀ s : State, s.dataLen.val ≤ s.offset.toNat ∨ s.length = 0#24 ∨ s.dataLen.val = 0 →
    s.window.count = 0#25 ∧
    (∃ t, exec (.run 0#1) s = .next t ∧ t.crc = 0xFFFF#16) ∧
    (∃ t, exec (.run 1#1) s = .next t ∧ t.crc = s.crc)) ∧
  (∀ (c : BitVec 1) (s : State), s.hostAnswers = true → s.offset.toNat < s.dataLen.val →
    s.dataLen.val < s.offset.toNat + s.length.toNat →
    s.window.count.toNat = s.dataLen.val - s.offset.toNat ∧
    ∃ t u, exec (.run c) s = .next t ∧
      exec (.run c) { s with length := BitVec.ofNat 24 (s.dataLen.val - s.offset.toNat) } = .next u ∧
      t.crc = u.crc)

/-- R93: RUN changes neither OFFSET nor LENGTH, and a second RUN gives the same CRC. -/
def Obligations.RunIsRepeatable : Prop :=
  (∀ (c : BitVec 1) (s t : State), exec (.run c) s = .next t → t.offset = s.offset ∧ t.length = s.length) ∧
  (∀ s : State, s.hostAnswers = true →
    ∃ t u, exec (.run 0#1) s = .next t ∧ exec (.run 0#1) t = .next u ∧ u.crc = t.crc)

/-- R94: no window raises an exception: whatever OFFSET, LENGTH, DATA_LEN and the host, RUN neither stops nor sets ERR. -/
def Obligations.RunRaisesNothing : Prop :=
  ∀ (c : BitVec 1) (s : State), ∃ t, exec (.run c) s = .next t ∧ t.err = s.err

/-! ### The datapath -/

/-- R75: the fold, the source's function, and the check value. -/
def Obligations.CheckValue : Prop :=
  (∀ (data : List Byte) (o n : Nat), sourceCrc16 data o n = crcOf 0xFFFF#16 ((data.drop o).take n)) ∧
  (∀ c : Crc, crcOf c [] = c) ∧ (∀ (c : Crc) (d : Byte) (s : List Byte), crcOf c (d :: s) = crcOf (updByte c d) s) ∧
  sourceCrc16 [0x31#8, 0x32#8, 0x33#8, 0x34#8, 0x35#8, 0x36#8, 0x37#8, 0x38#8, 0x39#8] 0 9 = 0x29B1#16

/-- R74: a working value of any width of 16 bits or more, never masked after step 2d, has the same low 16 bits. -/
def Obligations.WideWorkingValue : Prop :=
  ∀ (n : Nat) (c : BitVec n) (s : List Byte), 16 ≤ n →
    (crcOfWide c s).setWidth 16 = crcOf (c.setWidth 16) s

/-- R76: the gate equations and the table form are UpdByte. -/
def Obligations.GateAndTableForms : Prop :=
  (∀ (c : Crc) (d : Byte), updByteGates c d = updByte c d) ∧
  (∀ (c : Crc) (d : Byte), updByteTable c d = updByte c d) ∧
  (List.range 16).map (fun i => crcTable (BitVec.ofNat 8 i)) =
    [0x0000#16, 0x1021#16, 0x2042#16, 0x3063#16, 0x4084#16, 0x50A5#16, 0x60C6#16, 0x70E7#16,
     0x8108#16, 0x9129#16, 0xA14A#16, 0xB16B#16, 0xC18C#16, 0xD1AD#16, 0xE1CE#16, 0xF1EF#16]

/-- R78: eight bit updates, bit 7 first, are one byte update; bit 0 first is another function (V-B2's case). -/
def Obligations.BitSerialEqualsByte : Prop :=
  (∀ (c : Crc) (d : Byte), updByte c d =
    updBit (updBit (updBit (updBit (updBit (updBit (updBit (updBit c
      (d.extractLsb' 7 1)) (d.extractLsb' 6 1)) (d.extractLsb' 5 1)) (d.extractLsb' 4 1))
      (d.extractLsb' 3 1)) (d.extractLsb' 2 1)) (d.extractLsb' 1 1)) (d.extractLsb' 0 1)) ∧
  (bitsMsbFirst 0x31#8).reverse.foldl updBit 0xFFFF#16 = 0xB1F4#16 ∧
  (bitsMsbFirst 0x31#8).foldl updBit 0xFFFF#16 = 0xC782#16

/-- R79: linearity, bijection, concatenation and residue. -/
def Obligations.UpdateLaws : Prop :=
  (∀ (c₁ c₂ : Crc) (d₁ d₂ : Byte), updByte (c₁ ^^^ c₂) (d₁ ^^^ d₂) = updByte c₁ d₁ ^^^ updByte c₂ d₂) ∧
  updByte 0x0000#16 0x00#8 = 0x0000#16 ∧
  (∀ (c : Crc) (d : Byte), updByte c d = updByte c 0x00#8 ^^^ updByte 0x0000#16 d) ∧
  (∀ d : Byte, Function.Bijective fun c : Crc => updByte c d) ∧
  (∀ x : BitVec 1, Function.Bijective fun c : Crc => updBit c x) ∧
  (∀ (c : Crc) (s t : List Byte), crcOf c (s ++ t) = crcOf (crcOf c s) t) ∧
  (∀ r : Crc, updByte r (r.extractLsb' 8 8) = r.extractLsb' 0 8 ++ 0x00#8 ∧
    updByte (updByte r (r.extractLsb' 8 8)) (r.extractLsb' 0 8) = 0x0000#16) ∧
  (∀ s : List Byte, crcOf 0xFFFF#16
    (s ++ [(crcOf 0xFFFF#16 s).extractLsb' 8 8, (crcOf 0xFFFF#16 s).extractLsb' 0 8]) = 0x0000#16)

/-- R40: only INIT, BYTE, BIT and RUN change CRC, and two BYTEs reach every value from 0xFFFF. -/
def Obligations.EveryCrcIsReachable : Prop :=
  (∀ (i : Instr) (s t : State), exec i s = .next t → t.crc ≠ s.crc →
    i = .init ∨ (∃ d, i = .byte d) ∨ (∃ x, i = .bit x) ∨ ∃ c, i = .run c) ∧
  (∀ (s : State) (v : Crc), s.ready → s.crc = 0xFFFF#16 →
    ∃ d₁ d₂ t, execWords [encode (.byte d₁), encode (.byte d₂)] s = .next t ∧ t.crc = v)

/-! ### Encoding -/

/-- Some of the spec's words (V-E1) decode to what the spec says. -/
def Obligations.SpecWordsDecode : Prop :=
  decode 0x00000000#32 = .legal .nop ∧ decode 0x01000000#32 = .legal .init ∧
  decode 0x02000031#32 = .legal (.byte 0x31#8) ∧ decode 0x03000001#32 = .legal (.bit 1#1) ∧
  decode 0x04FFFFFF#32 = .legal (.setofs 0xFFFFFF#24) ∧ decode 0x05000009#32 = .legal (.setlen 9#24) ∧
  decode 0x06000001#32 = .legal (.run 1#1) ∧ decode 0x07000000#32 = .legal .clrerr ∧
  decode 0x00000001#32 = .illegal (.reservedBits .z) ∧ decode 0x01800000#32 = .illegal (.reservedBits .z) ∧
  decode 0xFFFFFFFF#32 = .illegal .undefinedOpcode

/-- R62: a word is a command exactly when it selects that command's row, and no word selects two rows. -/
def Obligations.DecodeFollowsOpcodeMap : Prop :=
  (∀ (w : Word) (i : Instr), decode w = .legal i → ∃ r ∈ opcodeMap, r.mnemonic = i.mnemonic ∧ r.selects w = true) ∧
  (∀ (w : Word) (r : OpcodeRow), r ∈ opcodeMap → r.selects w = true →
    ∃ i, decode w = .legal i ∧ i.mnemonic = r.mnemonic) ∧
  (∀ (w : Word) (r q : OpcodeRow), r ∈ opcodeMap → q ∈ opcodeMap → r.selects w = true → q.selects w = true → r = q)

/-- R64: which words are illegal, and that accepting one sets ERR, changes nothing else and leaves the port ready. -/
def Obligations.IllegalWords : Prop :=
  (∀ w : Word, (∃ c, decode w = .illegal c) ↔
    (0x08#8 ≤ opcOf w ∨
     ((opcOf w = 0x00#8 ∨ opcOf w = 0x01#8 ∨ opcOf w = 0x07#8) ∧ w.extractLsb' 0 24 ≠ 0#24) ∨
     (opcOf w = 0x02#8 ∧ w.extractLsb' 8 16 ≠ 0#16) ∨
     ((opcOf w = 0x03#8 ∨ opcOf w = 0x06#8) ∧ w.extractLsb' 1 23 ≠ 0#23))) ∧
  (∀ (w : Word) (c : IllegalCause) (s : State), s.ready → decode w = .illegal c →
    execWord w s = .next { s with err := true }) ∧
  (∀ (p : Pins) (c : IllegalCause) (s : State), p.rst = false → p.cmdValid = true → s.ready →
    decode p.cmdWord = .illegal c →
    clockEdge p s = .next { s with err := true, draws := s.draws + 1 })

/-- Every command's word decodes to it, with every operand. -/
def Obligations.DecodeEncode : Prop := ∀ i : Instr, decode (encode i) = .legal i

/-- Every legal word is the word of the command it decodes to: no bit of it is dropped. -/
def Obligations.EncodeDecode : Prop := ∀ (w : Word) (i : Instr), decode w = .legal i → encode i = w

/-- R68: each line of the assembly language, its word, and its range. -/
def Obligations.AssemblyLines : Prop :=
  SourceLine.assemble .nop = some [0x00000000#32] ∧ SourceLine.assemble .init = some [0x01000000#32] ∧
  SourceLine.assemble .run = some [0x06000000#32] ∧ SourceLine.assemble .runC = some [0x06000001#32] ∧
  SourceLine.assemble .clrerr = some [0x07000000#32] ∧
  (∀ d, SourceLine.assemble (.byte d) = if d ≤ 255 then some [0x02000000#32 ||| BitVec.ofNat 32 d] else none) ∧
  (∀ x, SourceLine.assemble (.bit x) =
    if x = 0 ∨ x = 1 then some [0x03000000#32 ||| BitVec.ofNat 32 x] else none) ∧
  (∀ v, SourceLine.assemble (.setofs v) =
    if v ≤ 0xFFFFFF then some [0x04000000#32 ||| BitVec.ofNat 32 v] else none) ∧
  (∀ v, SourceLine.assemble (.setlen v) =
    if v ≤ 0xFFFFFF then some [0x05000000#32 ||| BitVec.ofNat 32 v] else none) ∧
  (∀ n, SourceLine.assemble (.word n) = if n ≤ 0xFFFFFFFF then some [BitVec.ofNat 32 n] else none)

/-- R71: the worked encodings, from their source text. -/
def Obligations.WorkedEncodings : Prop :=
  assembleText ['B', 'Y', 'T', 'E', ' ', '\'', '1', '\''] = some [0x02000031#32] ∧
  assembleText ['B', 'Y', 'T', 'E', ' ', '0', 'x', 'F', 'F'] = some [0x020000FF#32] ∧
  assembleText ['B', 'I', 'T', ' ', '1'] = some [0x03000001#32] ∧
  assembleText ['S', 'E', 'T', 'O', 'F', 'S', ' ', '1'] = some [0x04000001#32] ∧
  assembleText ['S', 'E', 'T', 'L', 'E', 'N', ' ', '9'] = some [0x05000009#32] ∧
  assembleText ['S', 'E', 'T', 'L', 'E', 'N', ' ', '0', 'x', 'F', 'F', 'F', 'F', 'F', 'F'] = some [0x05FFFFFF#32] ∧
  assembleText ['R', 'U', 'N', '.', 'C'] = some [0x06000001#32] ∧
  assembleText ['.', 'w', 'o', 'r', 'd', ' ', '0', 'x', '0', '2', '0', '0', '0', '1', '3', '1'] = some [0x02000131#32] ∧
  decode 0x02000131#32 = .illegal (.reservedBits .b8) ∧
  assembleText ['.', 'w', 'o', 'r', 'd', ' ', '0', 'x', '0', '3', '0', '0', '0', '0', '0', '2'] = some [0x03000002#32] ∧
  decode 0x03000002#32 = .illegal (.reservedBits .b1) ∧
  assembleText ['.', 'w', 'o', 'r', 'd', ' ', '0', 'x', '0', '8', '0', '0', '0', '0', '0', '0'] = some [0x08000000#32] ∧
  decode 0x08000000#32 = .illegal .undefinedOpcode

/-- R70: the five expansions, in order; what BITS8 and CRCWIN compute. `hostAnswers` is the host's duty of R125. -/
def Obligations.PseudoInstructions : Prop :=
  (∀ ds : List Byte, SourceLine.assemble (.bytes (ds.map BitVec.toNat)) = some (ds.map fun d => encode (.byte d))) ∧
  (∀ text : List Char, (∀ c ∈ text, c.toNat < 128) →
    SourceLine.assemble (.str text) = some (text.map fun c => encode (.byte (BitVec.ofNat 8 c.toNat)))) ∧
  (∀ d : Byte, SourceLine.assemble (.bits8 d.toNat) = some
    [encode (.bit (d.extractLsb' 7 1)), encode (.bit (d.extractLsb' 6 1)), encode (.bit (d.extractLsb' 5 1)),
     encode (.bit (d.extractLsb' 4 1)), encode (.bit (d.extractLsb' 3 1)), encode (.bit (d.extractLsb' 2 1)),
     encode (.bit (d.extractLsb' 1 1)), encode (.bit (d.extractLsb' 0 1))]) ∧
  (∀ o n : Addr, SourceLine.assemble (.win o.toNat n.toNat) = some [encode (.setofs o), encode (.setlen n)]) ∧
  (∀ o n : Addr, SourceLine.assemble (.crcwin o.toNat n.toNat) =
    some [encode (.setofs o), encode (.setlen n), encode (.run 0#1)]) ∧
  (∀ (d : Byte) (s : State), s.betweenSteps → ∃ ws t u,
    SourceLine.assemble (.bits8 d.toNat) = some ws ∧ execWords ws s = .next t ∧
    exec (.byte d) s = .next u ∧ t.crc = u.crc) ∧
  (∀ (o n : Addr) (s : State), s.ready → s.hostAnswers = true → ∃ ws t,
    SourceLine.assemble (.crcwin o.toNat n.toNat) = some ws ∧ execWords ws s = .next t ∧
    t.crc = sourceCrc16 s.buffer o.toNat n.toNat)

/-! ### ERR and the one exception -/

/-- R104: IllegalCommand writes ERR and nothing else, and completes on the accepting edge. -/
def Obligations.IllegalCommandSetsOnlyErr : Prop :=
  ∀ (w : Word) (c : IllegalCause) (s : State), s.ready → decode w = .illegal c →
    execWord w s = .next { s with err := true } ∧ acceptWord w s = .next { s with err := true }

/-- R105: every cause has that one effect. -/
def Obligations.IllegalCauses : Prop :=
  ∀ (w : Word) (s : State), s.ready →
    (0x08#8 ≤ opcOf w → execWord w s = .next { s with err := true }) ∧
    ((opcOf w = 0x00#8 ∨ opcOf w = 0x01#8 ∨ opcOf w = 0x07#8) → w.extractLsb' 0 24 ≠ 0#24 →
      execWord w s = .next { s with err := true }) ∧
    (opcOf w = 0x02#8 → w.extractLsb' 8 16 ≠ 0#16 → execWord w s = .next { s with err := true }) ∧
    (opcOf w = 0x03#8 → w.extractLsb' 1 23 ≠ 0#23 → execWord w s = .next { s with err := true }) ∧
    (opcOf w = 0x06#8 → w.extractLsb' 1 23 ≠ 0#23 → execWord w s = .next { s with err := true })

/-- R103: a legal command always answers a next state and never sets ERR. -/
def Obligations.LegalCommandsNeverSetErr : Prop :=
  ∀ (i : Instr) (s : State), ∃ t, exec i s = .next t ∧ (t.err = true → s.err = true)

/-- R100: a legal command executes exactly as if ERR were 0, and ERR stays 1 until CLRERR. -/
def Obligations.ErrBlocksNothing : Prop :=
  (∀ (i : Instr) (s t : State), i ≠ .clrerr → exec i { s with err := false } = .next t →
    exec i { s with err := true } = .next { t with err := true }) ∧
  (∀ s : State, exec .clrerr { s with err := true } = exec .clrerr { s with err := false }) ∧
  (∀ (i : Instr) (s t : State), exec i s = .next t → s.err = true → t.err = false → i = .clrerr)

/-- R22: ERR is set only by accepting an illegal word, and cleared only by CLRERR and by reset. -/
def Obligations.ErrWriters : Prop :=
  ∀ s t : State, s.wasReset = true → step s = .next t →
    (s.err = false → t.err = true → ∃ w c, s.takesWord w ∧ decode w = .illegal c) ∧
    (s.err = true → t.err = false → s.takesReset ∨ s.takesWord (encode .clrerr))

/-- R101: a word is taken only when the previous command has completed, so none is taken behind one that never does; and
each command sees the whole effect of every earlier one, as RUN sees the OFFSET of the SETOFS before it. -/
def Obligations.CommandsCompleteInOrder : Prop :=
  (∀ (p : Pins) (s : State), s.wasReset = true → commandAccepted p s = true → s.busy = false) ∧
  (∀ (ws : List Word) (s : State), s.wasReset = true → s.busy = true → execWords ws s = .next s) ∧
  (∀ (ws us : List Word) (s t : State), execWords ws s = .next t → execWords (ws ++ us) s = execWords us t) ∧
  (∀ (v : Addr) (c : BitVec 1) (s : State), s.ready →
    execWords [encode (.setofs v), encode (.run c)] s = exec (.run c) { s with offset := v })

/-! ### The machine -/

/-- R121: before the first edge with `rst` = 1 every register and every output is a free value, new ones each cycle,
whatever the host does. -/
def Obligations.NothingIsSpecifiedBeforeReset : Prop :=
  State.powerUp.wasReset = false ∧
  (∃ n, State.powerUp.crc = (Config.freeRegisters n).crc ∧ State.powerUp.offset = (Config.freeRegisters n).offset ∧
    State.powerUp.length = (Config.freeRegisters n).length ∧ State.powerUp.err = (Config.freeRegisters n).err ∧
    State.powerUp.busy = (Config.freeRegisters n).busy) ∧
  (∀ (p : Pins) (w : Word) (s : State), s.wasReset = false → p.rst = false →
    ∃ t, clockEdge p s = .next t ∧ execWord w s = .next t ∧ t.wasReset = false ∧
      t.crc = (Config.freeRegisters s.draws).crc ∧ t.offset = (Config.freeRegisters s.draws).offset ∧
      t.length = (Config.freeRegisters s.draws).length ∧ t.err = (Config.freeRegisters s.draws).err ∧
      t.busy = (Config.freeRegisters s.draws).busy ∧ t.memReq = (Config.freeRegisters s.draws).memReq ∧
      (t.phase = .running ↔ (Config.freeRegisters s.draws).running = true) ∧
      t.idx = (Config.freeRegisters s.draws).idx ∧ t.endIdx = (Config.freeRegisters s.draws).endIdx ∧
      t.acc = (Config.freeRegisters s.draws).acc ∧ t.bitCount = (Config.freeRegisters s.draws).bitCount ∧
      t.shiftByte = (Config.freeRegisters s.draws).shiftByte ∧ t.draws = s.draws + 1) ∧
  (∀ (p : Pins) (s : State), s.wasReset = false →
    cmdReady p s = (Config.freeOutputs s.draws).cmdReady ∧ crcOut s = (Config.freeOutputs s.draws).crcOut ∧
    busyOut s = (Config.freeOutputs s.draws).busy ∧ errOut s = (Config.freeOutputs s.draws).err ∧
    memReqOut p s = (Config.freeOutputs s.draws).memReq ∧ memAddrOut s = (Config.freeOutputs s.draws).memAddr)

/-- R131: one edge with `rst` = 1 brings the block into the invariant, between two steps, from power-up and from every
state with a well-formed buffer. -/
def Obligations.BootReachesInvariant : Prop :=
  (∀ p : Pins, p.rst = true → ∃ t, clockEdge p State.powerUp = .next t ∧ t.Inv ∧ t.betweenSteps) ∧
  (∀ (p : Pins) (s : State), p.rst = true → Memory.wf s.data → (∀ x ∈ s.data, x.1 < s.dataLen.val) →
    (∀ a ∈ s.requests, a.toNat < s.dataLen.val) → ∃ t, clockEdge p s = .next t ∧ t.Inv ∧ t.betweenSteps)

/-- R39: the state after reset, where R39 gives it a value (the rest is log 1 and 2). -/
def Obligations.ResetState : Prop :=
  State.reset.crc = 0xFFFF#16 ∧ State.reset.offset = 0x000000#24 ∧ State.reset.length = 0x000000#24 ∧
  State.reset.err = false ∧ State.reset.busy = false ∧ State.reset.phase = .idle ∧ State.reset.memReq = false ∧
  (∀ p : Pins, p.rst = true → cmdReady p State.reset = false) ∧
  (∀ p : Pins, p.rst = false → cmdReady p State.reset = true)

/-- R118, R107: an edge with `rst` = 1 wins over everything, from every state: the registers take their reset values, and
a `mem_ack` that arrives later is ignored. -/
def Obligations.ResetWinsOverEverything : Prop :=
  ∀ (p : Pins) (s : State), p.rst = true → ∃ t, clockEdge p s = .next t ∧
    t.forgetHidden = { s.forgetHidden with
      crc := 0xFFFF#16, offset := 0x000000#24, length := 0x000000#24, err := false, busy := false
      phase := .idle, memReq := false, wasReset := true, raced := t.raced, requests := t.requests } ∧
    ∀ q : Pins, q.rst = false → q.cmdValid = false → clockEdge q t = .next { t with draws := t.draws + 1 }

/-- R119: a byte stream straight after reset gives the source's CRC, as if INIT had been issued. -/
def Obligations.ByteStreamAfterReset : Prop :=
  ∀ ds : List Byte, ∃ t u,
    execWords (ds.map fun d => encode (.byte d)) State.reset = .next t ∧ t.crc = crcOf 0xFFFF#16 ds ∧
    execWords (encode .init :: ds.map fun d => encode (.byte d)) State.reset = .next u ∧ u.crc = t.crc

/-- R102: with BUSY = 0 and `rst` = 0 every word is accepted, in every state. -/
def Obligations.EveryWordIsAccepted : Prop :=
  (∀ (p : Pins) (s : State), p.rst = false → p.cmdValid = true → s.ready →
    commandAccepted p s = true ∧ ∃ t, clockEdge p s = .next t) ∧
  (∀ (w : Word) (s : State), ∃ t, execWord w s = .next t) ∧
  (∃ t, exec (.run 0#1) State.reset = .next t ∧ t.crc = 0xFFFF#16) ∧
  (∀ d, ∃ t, exec (.byte d) State.reset = .next t ∧ t.crc = updByte 0xFFFF#16 d)

/-- A step runs the decoded command: with BUSY = 0, a presented word is taken from the host's actions and executed, and an
accepting edge has the whole effect of the command, or starts it: a RUN of a window that is not empty, with its first
request (R23, R35, R89), and a bit-serial BYTE (R84). That words come from the list `host` is the model's form (log 4,
log 11); so are what the accepting edge itself starts (log 10), CRC as it was while BUSY = 1 (log 9), `requests`
(log 12), and the bit counter at 0 and the byte as it came in the shift byte (log 26). -/
def Obligations.StepRunsDecodedCommand : Prop :=
  (∀ (s : State) (w : Word) (rest : List HostAction) (i : Instr), s.host = .present w :: rest → s.ready →
    decode w = .legal i → step s = exec i { s with host := rest }) ∧
  (∀ (s : State) (w : Word) (rest : List HostAction) (c : IllegalCause), s.host = .present w :: rest →
    s.ready → decode w = .illegal c → step s = .next { s with host := rest, err := true }) ∧
  (∀ (s : State) (n w : Nat) (i : Instr), s.betweenSteps → decodeTableWord n w = some i →
    step (s.withFetchWord n w) = exec i s) ∧
  (∀ (p : Pins) (s : State) (i : Instr), p.rst = false → p.cmdValid = true → s.ready →
    decode p.cmdWord = .legal i → (∀ d, i ≠ .byte d) → (∀ c, i ≠ .run c) → clockEdge p s = exec i s.tick) ∧
  (∀ (p : Pins) (s : State) (c : BitVec 1), p.rst = false → p.cmdValid = true → s.ready →
    decode p.cmdWord = .legal (.run c) →
    (s.window.count = 0#25 → clockEdge p s = exec (.run c) s.tick) ∧
    (s.window.count ≠ 0#25 → ∃ t, clockEdge p s = .next t ∧
      t.forgetHidden = { s.forgetHidden with
        busy := true, phase := .running, memReq := true, requests := s.offset :: s.requests, raced := [] } ∧
      memAddrOut t = s.offset ∧ t.idx.toNat = s.offset.toNat ∧ t.endIdx = s.window.stop ∧
      t.acc = if c = 1#1 then s.crc else 0xFFFF#16)) ∧
  (∀ (p : Pins) (s : State) (d : Byte), p.rst = false → p.cmdValid = true → s.ready →
    decode p.cmdWord = .legal (.byte d) →
    (s.datapath = .byteParallel → clockEdge p s = exec (.byte d) s.tick) ∧
    (s.datapath = .bitSerial → ∃ t, clockEdge p s = .next t ∧
      t.forgetHidden = { s.forgetHidden with busy := true } ∧
      t.acc = s.crc ∧ t.bitCount = 0#3 ∧ t.shiftByte = d))

/-- The reset state meets the invariant. -/
def Obligations.ResetMeetsInvariant : Prop := State.reset.Inv

/-- Every step keeps the invariant, whatever the host does. -/
def Obligations.StepKeepsInvariant : Prop := ∀ s t : State, s.Inv → step s = .next t → t.Inv

/-- R44: the block never requests an index at or above DATA_LEN, and nothing stops it but a host write to a byte that does
not exist, which is the model's choice (log 13). -/
def Obligations.NoReadOutsideBuffer : Prop :=
  ∀ s : State, s.Inv →
    (s.memReq = true → (memAddrOut s).toNat < s.dataLen.val) ∧
    (∀ r, step s ≠ .refused r) ∧
    (∀ r, step s = .fault r → ∃ a b rest, s.host = .write a b :: rest ∧ s.dataLen.val ≤ a.toNat)

/-- R19, R20: OFFSET and LENGTH are written only by SETOFS, by SETLEN, and by reset. -/
def Obligations.WindowRegisterWriters : Prop :=
  ∀ s t : State, s.wasReset = true → step s = .next t →
    (t.offset ≠ s.offset → s.takesReset ∨ ∃ v, s.takesWord (encode (.setofs v)) ∧ t.offset = v) ∧
    (t.length ≠ s.length → s.takesReset ∨ ∃ v, s.takesWord (encode (.setlen v)) ∧ t.length = v)

/-- R18, R40: CRC is written only by reset, INIT, BYTE, BIT and RUN, the last by a command in progress too. -/
def Obligations.CrcWriters : Prop :=
  ∀ s t : State, s.wasReset = true → step s = .next t → t.crc ≠ s.crc →
    s.busy = true ∨ s.takesReset ∨ s.takesWord (encode .init) ∨ (∃ d, s.takesWord (encode (.byte d))) ∨
    (∃ x, s.takesWord (encode (.bit x))) ∨ ∃ c, s.takesWord (encode (.run c))

/-- R42: the host is the only agent that writes the buffer, and DATA_LEN and DATAPATH never change. -/
def Obligations.OnlyTheHostWritesTheBuffer : Prop :=
  ∀ s t : State, Memory.wf s.data → step s = .next t →
    t.dataLen = s.dataLen ∧ t.datapath = s.datapath ∧
    (∀ i, Memory.read t.data i ≠ Memory.read s.data i →
      ∃ a b rest, s.host = .write a b :: rest ∧ i = a.toNat ∧ Memory.read t.data i = b)

/-- R54: a host write is what a later read of that index gives, and leaves every other byte alone. R43 defines MemRead below
DATA_LEN only: that it is as before at or above it is the model's choice (log 23). -/
def Obligations.HostWriteIsSeen : Prop :=
  ∀ (a : Addr) (b : Byte) (s : State), Memory.wf s.data → a.toNat < s.dataLen.val → ∃ t, hostWrite a b s = .next t ∧
    (∀ i : Index, t.memRead i = if i.toNat = a.toNat then b else s.memRead i) ∧ Memory.wf t.data ∧
    (t.crc = s.crc ∧ t.offset = s.offset ∧ t.length = s.length ∧ t.err = s.err ∧ t.busy = s.busy)

/-- R29: no command depends on the hidden registers. -/
def Obligations.HiddenStateIsInvisible : Prop :=
  ∀ (w : Word) (s s' t : State), s.betweenSteps → s.forgetHidden = s'.forgetHidden → execWord w s = .next t →
    ∃ t', execWord w s' = .next t' ∧ t'.forgetHidden = t.forgetHidden

/-! ### The signals -/

/-- R33, R34, R117: after reset every output of R30 is the function of the registers that the rules give, `crc_out` while
BUSY = 0 only (R122). `mem_addr` is IDX[23:0] while `mem_req` = 1 (R35, R43), and that it is so while `mem_req` = 0 is the
model's choice (log 15). R132: the end of a sequence, whose list of indices is kept as log 12 says. -/
def Obligations.OutputsShowRegisters : Prop :=
  (∀ (p : Pins) (s : State), s.wasReset = true →
    cmdReady p s = (!s.busy && !p.rst) ∧ busyOut s = s.busy ∧ errOut s = s.err ∧
    (s.busy = false → crcOut s = s.crc) ∧ (s.busy = true → crcOut s = Config.freeCrcOut s.draws) ∧
    (p.rst = true → memReqOut p s = false) ∧ (p.rst = false → memReqOut p s = s.memReq) ∧
    memAddrOut s = s.idx.setWidth 24) ∧
  (∀ s : State, s.wasReset = true →
    (s.endObservation = none ↔ s.busy = true ∨ s.host.any HostAction.hasWord = true) ∧
    (s.busy = false → s.host.any HostAction.hasWord = false →
      s.endObservation = some ⟨s.crc, s.err, s.requests.reverse⟩))

/-- R123, R33: a word presented while a command is in progress is not taken. -/
def Obligations.BusyPortTakesNothing : Prop :=
  ∀ (p : Pins) (s : State) (v : Bool) (w : Word), s.wasReset = true → s.busy = true →
    cmdReady p s = false ∧ commandAccepted p s = false ∧
    clockEdge { p with cmdValid := v, cmdWord := w } s = clockEdge p s

/-- R35: a request is held until the edge with `mem_ack` = 1, whose `mem_rdata` is the byte, and `mem_ack` counts for
nothing while `mem_req` = 0. What follows that edge on either datapath is the model's choice (log 10), and so is that the
bit counter and the shift byte are kept while the byte is awaited (log 25), and that the bit counter is 0 and the shift byte
the whole byte once it has come (log 26). -/
def Obligations.ReadPortHandshake : Prop :=
  (∀ (p : Pins) (s : State), s.wasReset = true → s.busy = true → s.memReq = true → p.rst = false → p.memAck = false →
    clockEdge p s = .next { s with draws := s.draws + 1 }) ∧
  (∀ (p : Pins) (s : State) (k : Bool) (d : Byte), s.memReq = false →
    clockEdge { p with memAck := k, memRdata := d } s = clockEdge p s) ∧
  (∀ (p : Pins) (s : State), s.Inv → s.memReq = true → p.rst = false → p.memAck = true →
    ∃ t, clockEdge p s = .next t ∧
      (s.datapath = .bitSerial → t.shiftByte = p.memRdata ∧ t.bitCount = 0#3 ∧ t.memReq = false) ∧
      (s.datapath = .byteParallel → s.idx + 1#25 < s.endIdx → t.acc = updByte s.acc p.memRdata ∧
        t.memReq = true ∧ memAddrOut t = (s.idx + 1#25).setWidth 24) ∧
      (s.datapath = .byteParallel → ¬ s.idx + 1#25 < s.endIdx → t.crc = updByte s.acc p.memRdata ∧
        t.memReq = false ∧ t.busy = false))

/-- R125: a request that is never answered is a hang: BUSY stays 1, and no command is accepted until reset. `hostAnswers`
is log 5; that CRC is as it was while BUSY = 1 is the model's choice (log 9), and that the bit counter and the shift byte
are kept while the byte is awaited is too (log 25). -/
def Obligations.UnansweredReadHangs : Prop :=
  (∀ (ps : List Pins) (s : State), s.wasReset = true → s.busy = true → s.memReq = true →
    (∀ p ∈ ps, p.rst = false ∧ p.memAck = false) →
    ∃ t, clockEdges ps s = .next t ∧ t = { s with draws := s.draws + ps.length } ∧
      ∀ p : Pins, commandAccepted p t = false) ∧
  (∀ (c : BitVec 1) (s : State), s.window.count ≠ 0#25 → s.hostAnswers = false →
    ∃ t, exec (.run c) s = .next t ∧ t.busy = true ∧ t.memReq = true ∧ t.crc = s.crc)

/-- R84 for BYTE: either datapath, from the accepting edge on, does what the architectural step does: one edge
byte-parallel, eight more bit-serial, which is the model's choice (log 10). -/
def Obligations.ByteRefinesOnEitherDatapath : Prop :=
  ∀ (d : Byte) (s : State) (p : Pins) (ps : List Pins), s.betweenSteps → p.presents (.byte d) →
    (∀ q ∈ ps, q.rst = false) →
    (s.datapath = .byteParallel → ps = []) → (s.datapath = .bitSerial → ps.length = 8) →
    ∃ t u, clockEdges (p :: ps) s = .next t ∧ exec (.byte d) s = .next u ∧ t.forgetHidden = u.forgetHidden

/-- R84, R89 and R36 for RUN: whatever the latency of each read and whatever stands at the port, when the RUN that an edge
accepted completes under an honest host, the state is the one of the architectural step. -/
def Obligations.RunRefinesArchitecturalStep : Prop :=
  ∀ (c : BitVec 1) (s s₁ t : State) (p : Pins) (ps : List Pins), s.betweenSteps → p.presents (.run c) →
    clockEdge p s = .next s₁ → honestEdges ps s₁ → clockUntilIdle ps s₁ = .next t → t.busy = false →
    ∃ u, exec (.run c) { s with hostAnswers := true } = .next u ∧
      t.forgetHidden = { u.forgetHidden with hostAnswers := s.hostAnswers }

/-- R129 for RUN: under the host's duty to answer, an accepted RUN completes, within nine edges a byte, with the state of
the architectural step. The bound is the model's choice (log 10). -/
def Obligations.AnsweredRunCompletes : Prop :=
  ∀ (c : BitVec 1) (s s₁ : State) (p : Pins), s.betweenSteps → s.hostAnswers = true → p.presents (.run c) →
    clockEdge p s = .next s₁ →
    ∃ n t u, n ≤ 9 * s.window.count.toNat ∧ quietEdges n s₁ = .next t ∧ t.busy = false ∧
      exec (.run c) s = .next u ∧ t.forgetHidden = u.forgetHidden

/-- R55: a byte the host changed during the RUN reads as a free value, whichever it is. -/
def Obligations.ChangedByteReadsFree : Prop :=
  ∀ (a : Addr) (b : Byte) (s t : State), s.busy = true → s.phase = .running → s.offset.toNat ≤ a.toNat →
    a.toNat < s.endIdx.toNat → hostWrite a b s = .next t →
    t.sampleByte a.toNat = Config.freeByte t.draws ∧
    (∀ i, i ≠ a.toNat → t.sampleByte i = s.sampleByte i)

/-- R55: a host write outside the effective window does not affect the RUN in progress. -/
def Obligations.WriteOutsideWindowDoesNotAffectRun : Prop :=
  ∀ (a : Addr) (b : Byte) (s s' t : State) (n : Nat), s.Inv → s.phase = .running →
    (a.toNat < s.offset.toNat ∨ s.endIdx.toNat ≤ a.toNat) → hostWrite a b s = .next s' →
    quietEdges n s = .next t →
    ∃ t', quietEdges n s' = .next t' ∧ t'.crc = t.crc ∧ t'.err = t.err ∧ t'.busy = t.busy ∧ t'.requests = t.requests

/-! ### The observation -/

/-- R132: a sequence of words is observed as CRC, ERR and the indices read since its first word; there is no observation
while a word is still to be accepted or a command is in progress, none of a sequence with `rst` = 1 between its first
word and a later one, whatever else the host does, and none, ever, of one whose RUN waits on an unanswered read. How the sequence is held is
log 4 and log 12. -/
def Obligations.ObservationOfSequence : Prop :=
  (∀ (ws : List Word) (s t : State), ws ≠ [] → s.betweenSteps → s.hostAnswers = true → execWords ws s = .next t →
    ∃ read : List Addr, t.requests = read.reverse ++ s.requests ∧
      observe ws.length { s with host := ws.map .present } = some ⟨t.crc, t.err, read⟩) ∧
  (∀ s : State, s.busy = true ∨ s.host.any HostAction.hasWord = true → s.endObservation = none) ∧
  (∀ (n : Nat) (w : Word) (p : Pins) (before rest : List HostAction) (s : State), s.takesWord w →
    s.host = before ++ .edge p :: rest → p.rst = true → rest.any HostAction.hasWord = true → observe n s = none) ∧
  (∀ (n : Nat) (c : BitVec 1) (ws : List Word) (s : State), s.betweenSteps → s.window.count ≠ 0#25 →
    s.hostAnswers = false → observe n { s with host := .present (encode (.run c)) :: ws.map .present } = none)

/-- R23, R25: only the block writes BUSY. It rises when the port takes a RUN of a window that is not empty, or a BYTE on the
bit-serial datapath; it falls at reset, or when the command completes: a BYTE with its last bit, a RUN with the last byte
of its window. Which edge completes what is the model's choice (log 10), and so is that the bit counter is 7
at the last bit (log 26). -/
def Obligations.BusyWriters : Prop :=
  ∀ s t : State, s.Inv → step s = .next t →
    (s.busy = false → t.busy = true →
      (∃ c, s.takesWord (encode (.run c)) ∧ s.window.count ≠ 0#25) ∨
      (∃ d, s.takesWord (encode (.byte d)) ∧ s.datapath = .bitSerial)) ∧
    (s.busy = true → t.busy = false → s.takesReset ∨
      (t.phase = .idle ∧ t.memReq = false ∧ (s.phase = .idle → s.bitCount = 7#3) ∧
        (s.phase = .running → s.idx + 1#25 = s.endIdx)))
end

