-- ==== Sys2Proof/Laws/Datapath.lean ====
section
/-! SUPPORT. The update functions bit by bit: what each result bit of UpdByte and of UpdBit is. Later proofs about the
datapath compare bits and do not unfold the steps of R73. -/

namespace Sys2Proof.Machine

/-- Each bit of UpdByte is the XOR of two to four bits of CRC and of the byte (R73, R76). -/
theorem updByte_getLsbD (c : Crc) (d : Byte) (i : Nat) (hi : i < 16) :
    (updByte c d).getLsbD i = (gateBits c d).getD i false := by
  interval_cases i <;>
  simp [updByte, swapBytes, gateBits] <;> grind

/-- Each bit of UpdBit: the bit below it, XOR the polynomial's bit where `fb` = 1 (R77). -/
theorem updBit_getLsbD (c : Crc) (x : BitVec 1) (i : Nat) (hi : i < 16) :
    (updBit c x).getLsbD i =
      ((decide (1 ≤ i) && c.getLsbD (i - 1)) ^^ ((c.getLsbD 15 ^^ x.getLsbD 0) && (0x1021#16).getLsbD i)) := by
  have hx : (c.extractLsb' 15 1 ^^^ x = 1#1) ↔ (c.getLsbD 15 ^^ x.getLsbD 0) = true := by
    constructor
    · intro h
      have := congrArg (·.getLsbD 0) h
      simpa using this
    · intro h
      apply BitVec.eq_of_getLsbD_eq
      intro i hi
      interval_cases i
      simpa using h
  unfold updBit
  by_cases h : c.extractLsb' 15 1 ^^^ x = 1#1
  · have h' := hx.mp h
    simp only [h, if_true, h', Config.poly]
    simp [hi]
    cases i with
    | zero => simp
    | succ n => rw [← BitVec.getLsbD_eq_getElem]; simp
  · have h' : (c.getLsbD 15 ^^ x.getLsbD 0) = false := by
      rw [hx] at h
      simpa using h
    simp only [h, if_false, h']
    simp [hi]
    cases i with
    | zero => simp
    | succ n => rw [← BitVec.getLsbD_eq_getElem]; simp

end Sys2Proof.Machine
end

