-- ==== Sys2Proof/Laws/Decode.lean ====
section
/-! SUPPORT. The fields of a word, and the decoder's cases said once. -/

namespace Sys2Proof

/-- A word is its OPC above its IMM (R59). -/
theorem word_eq_opc_imm (w : Word) : w = (opcOf w).setWidth 32 <<< 24 ||| (immOf w).setWidth 32 := by
  apply BitVec.eq_of_getLsbD_eq
  intro i hi
  simp only [opcOf, immOf, BitVec.getLsbD_or, BitVec.getLsbD_shiftLeft, BitVec.getLsbD_setWidth,
    BitVec.getLsbD_extractLsb']
  by_cases h : i < 24
  · simp [h, hi]
  · have h1 : i - 24 < 32 := by omega
    have h2 : i - 24 < 8 := by omega
    have h3 : 24 + (i - 24) = i := by omega
    simp [h, hi, h1, h2, h3]

/-- Everything a word can decode to: the command of its opcode with the operand bits as they stand, or illegal. -/
theorem decode_cases (w : Word) (i : Instr) (h : decode w = .legal i) :
    (opcOf w = 0x00#8 ∧ immOf w = 0#24 ∧ i = .nop) ∨
    (opcOf w = 0x01#8 ∧ immOf w = 0#24 ∧ i = .init) ∨
    (opcOf w = 0x02#8 ∧ (immOf w).extractLsb' 8 16 = 0#16 ∧ i = .byte (operandD w)) ∨
    (opcOf w = 0x03#8 ∧ (immOf w).extractLsb' 1 23 = 0#23 ∧ i = .bit (operandBit w)) ∨
    (opcOf w = 0x04#8 ∧ i = .setofs (operandV w)) ∨
    (opcOf w = 0x05#8 ∧ i = .setlen (operandV w)) ∨
    (opcOf w = 0x06#8 ∧ (immOf w).extractLsb' 1 23 = 0#23 ∧ i = .run (operandBit w)) ∨
    (opcOf w = 0x07#8 ∧ immOf w = 0#24 ∧ i = .clrerr) := by
  unfold decode at h
  simp only [reservedZero, reservedZeroB8, reservedZeroBit, beq_iff_eq] at h
  split at h
  · split at h <;> simp_all
  split at h
  · split at h <;> simp_all
  split at h
  · split at h <;> simp_all
  split at h
  · split at h <;> simp_all
  split at h
  · simp_all
  split at h
  · simp_all
  split at h
  · split at h <;> simp_all
  split at h
  · split at h <;> simp_all
  cases h

end Sys2Proof
end

