-- ==== Sys2Proof/Laws/State.lean ====
section
/-! SUPPORT. One lemma per field of State and per update: what the update makes of the field. -/

namespace Sys2Proof.Machine

namespace State

variable (s : State)

/-! #### setErr: ERR <- 1 -/

@[simp] theorem setErr_crc : s.setErr.crc = s.crc := rfl
@[simp] theorem setErr_offset : s.setErr.offset = s.offset := rfl
@[simp] theorem setErr_length : s.setErr.length = s.length := rfl
@[simp] theorem setErr_err : s.setErr.err = true := rfl
@[simp] theorem setErr_busy : s.setErr.busy = s.busy := rfl
@[simp] theorem setErr_phase : s.setErr.phase = s.phase := rfl
@[simp] theorem setErr_idx : s.setErr.idx = s.idx := rfl
@[simp] theorem setErr_endIdx : s.setErr.endIdx = s.endIdx := rfl
@[simp] theorem setErr_acc : s.setErr.acc = s.acc := rfl
@[simp] theorem setErr_bitCount : s.setErr.bitCount = s.bitCount := rfl
@[simp] theorem setErr_shiftByte : s.setErr.shiftByte = s.shiftByte := rfl
@[simp] theorem setErr_memReq : s.setErr.memReq = s.memReq := rfl
@[simp] theorem setErr_wasReset : s.setErr.wasReset = s.wasReset := rfl
@[simp] theorem setErr_dataLen : s.setErr.dataLen = s.dataLen := rfl
@[simp] theorem setErr_datapath : s.setErr.datapath = s.datapath := rfl
@[simp] theorem setErr_data : s.setErr.data = s.data := rfl
@[simp] theorem setErr_hostAnswers : s.setErr.hostAnswers = s.hostAnswers := rfl
@[simp] theorem setErr_host : s.setErr.host = s.host := rfl
@[simp] theorem setErr_raced : s.setErr.raced = s.raced := rfl
@[simp] theorem setErr_requests : s.setErr.requests = s.requests := rfl
@[simp] theorem setErr_draws : s.setErr.draws = s.draws := rfl

/-! #### clearErr: ERR <- 0 -/

@[simp] theorem clearErr_crc : s.clearErr.crc = s.crc := rfl
@[simp] theorem clearErr_offset : s.clearErr.offset = s.offset := rfl
@[simp] theorem clearErr_length : s.clearErr.length = s.length := rfl
@[simp] theorem clearErr_err : s.clearErr.err = false := rfl
@[simp] theorem clearErr_busy : s.clearErr.busy = s.busy := rfl
@[simp] theorem clearErr_phase : s.clearErr.phase = s.phase := rfl
@[simp] theorem clearErr_idx : s.clearErr.idx = s.idx := rfl
@[simp] theorem clearErr_endIdx : s.clearErr.endIdx = s.endIdx := rfl
@[simp] theorem clearErr_acc : s.clearErr.acc = s.acc := rfl
@[simp] theorem clearErr_bitCount : s.clearErr.bitCount = s.bitCount := rfl
@[simp] theorem clearErr_shiftByte : s.clearErr.shiftByte = s.shiftByte := rfl
@[simp] theorem clearErr_memReq : s.clearErr.memReq = s.memReq := rfl
@[simp] theorem clearErr_wasReset : s.clearErr.wasReset = s.wasReset := rfl
@[simp] theorem clearErr_dataLen : s.clearErr.dataLen = s.dataLen := rfl
@[simp] theorem clearErr_datapath : s.clearErr.datapath = s.datapath := rfl
@[simp] theorem clearErr_data : s.clearErr.data = s.data := rfl
@[simp] theorem clearErr_hostAnswers : s.clearErr.hostAnswers = s.hostAnswers := rfl
@[simp] theorem clearErr_host : s.clearErr.host = s.host := rfl
@[simp] theorem clearErr_raced : s.clearErr.raced = s.raced := rfl
@[simp] theorem clearErr_requests : s.clearErr.requests = s.requests := rfl
@[simp] theorem clearErr_draws : s.clearErr.draws = s.draws := rfl

/-! #### raiseBusy: BUSY <- 1 -/

@[simp] theorem raiseBusy_crc : s.raiseBusy.crc = s.crc := rfl
@[simp] theorem raiseBusy_offset : s.raiseBusy.offset = s.offset := rfl
@[simp] theorem raiseBusy_length : s.raiseBusy.length = s.length := rfl
@[simp] theorem raiseBusy_err : s.raiseBusy.err = s.err := rfl
@[simp] theorem raiseBusy_busy : s.raiseBusy.busy = true := rfl
@[simp] theorem raiseBusy_phase : s.raiseBusy.phase = s.phase := rfl
@[simp] theorem raiseBusy_idx : s.raiseBusy.idx = s.idx := rfl
@[simp] theorem raiseBusy_endIdx : s.raiseBusy.endIdx = s.endIdx := rfl
@[simp] theorem raiseBusy_acc : s.raiseBusy.acc = s.acc := rfl
@[simp] theorem raiseBusy_bitCount : s.raiseBusy.bitCount = s.bitCount := rfl
@[simp] theorem raiseBusy_shiftByte : s.raiseBusy.shiftByte = s.shiftByte := rfl
@[simp] theorem raiseBusy_memReq : s.raiseBusy.memReq = s.memReq := rfl
@[simp] theorem raiseBusy_wasReset : s.raiseBusy.wasReset = s.wasReset := rfl
@[simp] theorem raiseBusy_dataLen : s.raiseBusy.dataLen = s.dataLen := rfl
@[simp] theorem raiseBusy_datapath : s.raiseBusy.datapath = s.datapath := rfl
@[simp] theorem raiseBusy_data : s.raiseBusy.data = s.data := rfl
@[simp] theorem raiseBusy_hostAnswers : s.raiseBusy.hostAnswers = s.hostAnswers := rfl
@[simp] theorem raiseBusy_host : s.raiseBusy.host = s.host := rfl
@[simp] theorem raiseBusy_raced : s.raiseBusy.raced = s.raced := rfl
@[simp] theorem raiseBusy_requests : s.raiseBusy.requests = s.requests := rfl
@[simp] theorem raiseBusy_draws : s.raiseBusy.draws = s.draws := rfl

/-! #### dropBusy: BUSY <- 0 -/

@[simp] theorem dropBusy_crc : s.dropBusy.crc = s.crc := rfl
@[simp] theorem dropBusy_offset : s.dropBusy.offset = s.offset := rfl
@[simp] theorem dropBusy_length : s.dropBusy.length = s.length := rfl
@[simp] theorem dropBusy_err : s.dropBusy.err = s.err := rfl
@[simp] theorem dropBusy_busy : s.dropBusy.busy = false := rfl
@[simp] theorem dropBusy_phase : s.dropBusy.phase = s.phase := rfl
@[simp] theorem dropBusy_idx : s.dropBusy.idx = s.idx := rfl
@[simp] theorem dropBusy_endIdx : s.dropBusy.endIdx = s.endIdx := rfl
@[simp] theorem dropBusy_acc : s.dropBusy.acc = s.acc := rfl
@[simp] theorem dropBusy_bitCount : s.dropBusy.bitCount = s.bitCount := rfl
@[simp] theorem dropBusy_shiftByte : s.dropBusy.shiftByte = s.shiftByte := rfl
@[simp] theorem dropBusy_memReq : s.dropBusy.memReq = s.memReq := rfl
@[simp] theorem dropBusy_wasReset : s.dropBusy.wasReset = s.wasReset := rfl
@[simp] theorem dropBusy_dataLen : s.dropBusy.dataLen = s.dataLen := rfl
@[simp] theorem dropBusy_datapath : s.dropBusy.datapath = s.datapath := rfl
@[simp] theorem dropBusy_data : s.dropBusy.data = s.data := rfl
@[simp] theorem dropBusy_hostAnswers : s.dropBusy.hostAnswers = s.hostAnswers := rfl
@[simp] theorem dropBusy_host : s.dropBusy.host = s.host := rfl
@[simp] theorem dropBusy_raced : s.dropBusy.raced = s.raced := rfl
@[simp] theorem dropBusy_requests : s.dropBusy.requests = s.requests := rfl
@[simp] theorem dropBusy_draws : s.dropBusy.draws = s.draws := rfl

/-! #### tick: a cycle passes -/

@[simp] theorem tick_crc : s.tick.crc = s.crc := rfl
@[simp] theorem tick_offset : s.tick.offset = s.offset := rfl
@[simp] theorem tick_length : s.tick.length = s.length := rfl
@[simp] theorem tick_err : s.tick.err = s.err := rfl
@[simp] theorem tick_busy : s.tick.busy = s.busy := rfl
@[simp] theorem tick_phase : s.tick.phase = s.phase := rfl
@[simp] theorem tick_idx : s.tick.idx = s.idx := rfl
@[simp] theorem tick_endIdx : s.tick.endIdx = s.endIdx := rfl
@[simp] theorem tick_acc : s.tick.acc = s.acc := rfl
@[simp] theorem tick_bitCount : s.tick.bitCount = s.bitCount := rfl
@[simp] theorem tick_shiftByte : s.tick.shiftByte = s.shiftByte := rfl
@[simp] theorem tick_memReq : s.tick.memReq = s.memReq := rfl
@[simp] theorem tick_wasReset : s.tick.wasReset = s.wasReset := rfl
@[simp] theorem tick_dataLen : s.tick.dataLen = s.dataLen := rfl
@[simp] theorem tick_datapath : s.tick.datapath = s.datapath := rfl
@[simp] theorem tick_data : s.tick.data = s.data := rfl
@[simp] theorem tick_hostAnswers : s.tick.hostAnswers = s.hostAnswers := rfl
@[simp] theorem tick_host : s.tick.host = s.host := rfl
@[simp] theorem tick_raced : s.tick.raced = s.raced := rfl
@[simp] theorem tick_requests : s.tick.requests = s.requests := rfl
@[simp] theorem tick_draws : s.tick.draws = s.draws + 1 := rfl

/-! #### releaseByte: the registers of a byte in progress lose their meaning -/

@[simp] theorem releaseByte_crc : s.releaseByte.crc = s.crc := rfl
@[simp] theorem releaseByte_offset : s.releaseByte.offset = s.offset := rfl
@[simp] theorem releaseByte_length : s.releaseByte.length = s.length := rfl
@[simp] theorem releaseByte_err : s.releaseByte.err = s.err := rfl
@[simp] theorem releaseByte_busy : s.releaseByte.busy = s.busy := rfl
@[simp] theorem releaseByte_phase : s.releaseByte.phase = s.phase := rfl
@[simp] theorem releaseByte_idx : s.releaseByte.idx = s.idx := rfl
@[simp] theorem releaseByte_endIdx : s.releaseByte.endIdx = s.endIdx := rfl
@[simp] theorem releaseByte_acc : s.releaseByte.acc = Config.freeAcc s.draws := rfl
@[simp] theorem releaseByte_bitCount : s.releaseByte.bitCount = Config.freeBitCount s.draws := rfl
@[simp] theorem releaseByte_shiftByte : s.releaseByte.shiftByte = Config.freeShiftByte s.draws := rfl
@[simp] theorem releaseByte_memReq : s.releaseByte.memReq = s.memReq := rfl
@[simp] theorem releaseByte_wasReset : s.releaseByte.wasReset = s.wasReset := rfl
@[simp] theorem releaseByte_dataLen : s.releaseByte.dataLen = s.dataLen := rfl
@[simp] theorem releaseByte_datapath : s.releaseByte.datapath = s.datapath := rfl
@[simp] theorem releaseByte_data : s.releaseByte.data = s.data := rfl
@[simp] theorem releaseByte_hostAnswers : s.releaseByte.hostAnswers = s.hostAnswers := rfl
@[simp] theorem releaseByte_host : s.releaseByte.host = s.host := rfl
@[simp] theorem releaseByte_raced : s.releaseByte.raced = s.raced := rfl
@[simp] theorem releaseByte_requests : s.releaseByte.requests = s.requests := rfl
@[simp] theorem releaseByte_draws : s.releaseByte.draws = s.draws + 1 := rfl

/-! #### releaseWindow: IDX and END lose their meaning -/

@[simp] theorem releaseWindow_crc : s.releaseWindow.crc = s.crc := rfl
@[simp] theorem releaseWindow_offset : s.releaseWindow.offset = s.offset := rfl
@[simp] theorem releaseWindow_length : s.releaseWindow.length = s.length := rfl
@[simp] theorem releaseWindow_err : s.releaseWindow.err = s.err := rfl
@[simp] theorem releaseWindow_busy : s.releaseWindow.busy = s.busy := rfl
@[simp] theorem releaseWindow_phase : s.releaseWindow.phase = s.phase := rfl
@[simp] theorem releaseWindow_idx : s.releaseWindow.idx = Config.freeIdx s.draws := rfl
@[simp] theorem releaseWindow_endIdx : s.releaseWindow.endIdx = Config.freeEnd s.draws := rfl
@[simp] theorem releaseWindow_acc : s.releaseWindow.acc = s.acc := rfl
@[simp] theorem releaseWindow_bitCount : s.releaseWindow.bitCount = s.bitCount := rfl
@[simp] theorem releaseWindow_shiftByte : s.releaseWindow.shiftByte = s.shiftByte := rfl
@[simp] theorem releaseWindow_memReq : s.releaseWindow.memReq = s.memReq := rfl
@[simp] theorem releaseWindow_wasReset : s.releaseWindow.wasReset = s.wasReset := rfl
@[simp] theorem releaseWindow_dataLen : s.releaseWindow.dataLen = s.dataLen := rfl
@[simp] theorem releaseWindow_datapath : s.releaseWindow.datapath = s.datapath := rfl
@[simp] theorem releaseWindow_data : s.releaseWindow.data = s.data := rfl
@[simp] theorem releaseWindow_hostAnswers : s.releaseWindow.hostAnswers = s.hostAnswers := rfl
@[simp] theorem releaseWindow_host : s.releaseWindow.host = s.host := rfl
@[simp] theorem releaseWindow_raced : s.releaseWindow.raced = s.raced := rfl
@[simp] theorem releaseWindow_requests : s.releaseWindow.requests = s.requests := rfl
@[simp] theorem releaseWindow_draws : s.releaseWindow.draws = s.draws + 1 := rfl

/-! #### forgetHidden: the hidden registers out of sight -/

@[simp] theorem forgetHidden_crc : s.forgetHidden.crc = s.crc := rfl
@[simp] theorem forgetHidden_offset : s.forgetHidden.offset = s.offset := rfl
@[simp] theorem forgetHidden_length : s.forgetHidden.length = s.length := rfl
@[simp] theorem forgetHidden_err : s.forgetHidden.err = s.err := rfl
@[simp] theorem forgetHidden_busy : s.forgetHidden.busy = s.busy := rfl
@[simp] theorem forgetHidden_phase : s.forgetHidden.phase = s.phase := rfl
@[simp] theorem forgetHidden_idx : s.forgetHidden.idx = 0#25 := rfl
@[simp] theorem forgetHidden_endIdx : s.forgetHidden.endIdx = 0#25 := rfl
@[simp] theorem forgetHidden_acc : s.forgetHidden.acc = 0#16 := rfl
@[simp] theorem forgetHidden_bitCount : s.forgetHidden.bitCount = 0#3 := rfl
@[simp] theorem forgetHidden_shiftByte : s.forgetHidden.shiftByte = 0#8 := rfl
@[simp] theorem forgetHidden_memReq : s.forgetHidden.memReq = s.memReq := rfl
@[simp] theorem forgetHidden_wasReset : s.forgetHidden.wasReset = s.wasReset := rfl
@[simp] theorem forgetHidden_dataLen : s.forgetHidden.dataLen = s.dataLen := rfl
@[simp] theorem forgetHidden_datapath : s.forgetHidden.datapath = s.datapath := rfl
@[simp] theorem forgetHidden_data : s.forgetHidden.data = s.data := rfl
@[simp] theorem forgetHidden_hostAnswers : s.forgetHidden.hostAnswers = s.hostAnswers := rfl
@[simp] theorem forgetHidden_host : s.forgetHidden.host = s.host := rfl
@[simp] theorem forgetHidden_raced : s.forgetHidden.raced = s.raced := rfl
@[simp] theorem forgetHidden_requests : s.forgetHidden.requests = s.requests := rfl
@[simp] theorem forgetHidden_draws : s.forgetHidden.draws = 0 := rfl

/-! #### completeByte: a BYTE completes -/

@[simp] theorem completeByte_crc (c : Crc) : (s.completeByte c).crc = c := rfl
@[simp] theorem completeByte_offset (c : Crc) : (s.completeByte c).offset = s.offset := rfl
@[simp] theorem completeByte_length (c : Crc) : (s.completeByte c).length = s.length := rfl
@[simp] theorem completeByte_err (c : Crc) : (s.completeByte c).err = s.err := rfl
@[simp] theorem completeByte_busy (c : Crc) : (s.completeByte c).busy = false := rfl
@[simp] theorem completeByte_phase (c : Crc) : (s.completeByte c).phase = s.phase := rfl
@[simp] theorem completeByte_idx (c : Crc) : (s.completeByte c).idx = s.idx := rfl
@[simp] theorem completeByte_endIdx (c : Crc) : (s.completeByte c).endIdx = s.endIdx := rfl
@[simp] theorem completeByte_acc (c : Crc) : (s.completeByte c).acc = Config.freeAcc s.draws := rfl
@[simp] theorem completeByte_bitCount (c : Crc) : (s.completeByte c).bitCount = Config.freeBitCount s.draws := rfl
@[simp] theorem completeByte_shiftByte (c : Crc) : (s.completeByte c).shiftByte = Config.freeShiftByte s.draws := rfl
@[simp] theorem completeByte_memReq (c : Crc) : (s.completeByte c).memReq = s.memReq := rfl
@[simp] theorem completeByte_wasReset (c : Crc) : (s.completeByte c).wasReset = s.wasReset := rfl
@[simp] theorem completeByte_dataLen (c : Crc) : (s.completeByte c).dataLen = s.dataLen := rfl
@[simp] theorem completeByte_datapath (c : Crc) : (s.completeByte c).datapath = s.datapath := rfl
@[simp] theorem completeByte_data (c : Crc) : (s.completeByte c).data = s.data := rfl
@[simp] theorem completeByte_hostAnswers (c : Crc) : (s.completeByte c).hostAnswers = s.hostAnswers := rfl
@[simp] theorem completeByte_host (c : Crc) : (s.completeByte c).host = s.host := rfl
@[simp] theorem completeByte_raced (c : Crc) : (s.completeByte c).raced = s.raced := rfl
@[simp] theorem completeByte_requests (c : Crc) : (s.completeByte c).requests = s.requests := rfl
@[simp] theorem completeByte_draws (c : Crc) : (s.completeByte c).draws = s.draws + 1 := rfl

/-! #### completeRun: a RUN completes -/

@[simp] theorem completeRun_crc (c : Crc) : (s.completeRun c).crc = c := rfl
@[simp] theorem completeRun_offset (c : Crc) : (s.completeRun c).offset = s.offset := rfl
@[simp] theorem completeRun_length (c : Crc) : (s.completeRun c).length = s.length := rfl
@[simp] theorem completeRun_err (c : Crc) : (s.completeRun c).err = s.err := rfl
@[simp] theorem completeRun_busy (c : Crc) : (s.completeRun c).busy = false := rfl
@[simp] theorem completeRun_phase (c : Crc) : (s.completeRun c).phase = .idle := rfl
@[simp] theorem completeRun_idx (c : Crc) : (s.completeRun c).idx = Config.freeIdx (s.draws + 1) := rfl
@[simp] theorem completeRun_endIdx (c : Crc) : (s.completeRun c).endIdx = Config.freeEnd (s.draws + 1) := rfl
@[simp] theorem completeRun_acc (c : Crc) : (s.completeRun c).acc = Config.freeAcc s.draws := rfl
@[simp] theorem completeRun_bitCount (c : Crc) : (s.completeRun c).bitCount = Config.freeBitCount s.draws := rfl
@[simp] theorem completeRun_shiftByte (c : Crc) : (s.completeRun c).shiftByte = Config.freeShiftByte s.draws := rfl
@[simp] theorem completeRun_memReq (c : Crc) : (s.completeRun c).memReq = false := rfl
@[simp] theorem completeRun_wasReset (c : Crc) : (s.completeRun c).wasReset = s.wasReset := rfl
@[simp] theorem completeRun_dataLen (c : Crc) : (s.completeRun c).dataLen = s.dataLen := rfl
@[simp] theorem completeRun_datapath (c : Crc) : (s.completeRun c).datapath = s.datapath := rfl
@[simp] theorem completeRun_data (c : Crc) : (s.completeRun c).data = s.data := rfl
@[simp] theorem completeRun_hostAnswers (c : Crc) : (s.completeRun c).hostAnswers = s.hostAnswers := rfl
@[simp] theorem completeRun_host (c : Crc) : (s.completeRun c).host = s.host := rfl
@[simp] theorem completeRun_raced (c : Crc) : (s.completeRun c).raced = [] := rfl
@[simp] theorem completeRun_requests (c : Crc) : (s.completeRun c).requests = s.requests := rfl
@[simp] theorem completeRun_draws (c : Crc) : (s.completeRun c).draws = s.draws + 2 := rfl

/-! #### request: a read is requested -/

@[simp] theorem request_crc (i : Index) : (s.request i).crc = s.crc := rfl
@[simp] theorem request_offset (i : Index) : (s.request i).offset = s.offset := rfl
@[simp] theorem request_length (i : Index) : (s.request i).length = s.length := rfl
@[simp] theorem request_err (i : Index) : (s.request i).err = s.err := rfl
@[simp] theorem request_busy (i : Index) : (s.request i).busy = s.busy := rfl
@[simp] theorem request_phase (i : Index) : (s.request i).phase = s.phase := rfl
@[simp] theorem request_idx (i : Index) : (s.request i).idx = i := rfl
@[simp] theorem request_endIdx (i : Index) : (s.request i).endIdx = s.endIdx := rfl
@[simp] theorem request_acc (i : Index) : (s.request i).acc = s.acc := rfl
@[simp] theorem request_bitCount (i : Index) : (s.request i).bitCount = s.bitCount := rfl
@[simp] theorem request_shiftByte (i : Index) : (s.request i).shiftByte = s.shiftByte := rfl
@[simp] theorem request_memReq (i : Index) : (s.request i).memReq = true := rfl
@[simp] theorem request_wasReset (i : Index) : (s.request i).wasReset = s.wasReset := rfl
@[simp] theorem request_dataLen (i : Index) : (s.request i).dataLen = s.dataLen := rfl
@[simp] theorem request_datapath (i : Index) : (s.request i).datapath = s.datapath := rfl
@[simp] theorem request_data (i : Index) : (s.request i).data = s.data := rfl
@[simp] theorem request_hostAnswers (i : Index) : (s.request i).hostAnswers = s.hostAnswers := rfl
@[simp] theorem request_host (i : Index) : (s.request i).host = s.host := rfl
@[simp] theorem request_raced (i : Index) : (s.request i).raced = s.raced := rfl
@[simp] theorem request_requests (i : Index) : (s.request i).requests = i.setWidth 24 :: s.requests := rfl
@[simp] theorem request_draws (i : Index) : (s.request i).draws = s.draws := rfl

/-! #### startRun: a RUN starts -/

@[simp] theorem startRun_crc (c : BitVec 1) : (s.startRun c).crc = s.crc := rfl
@[simp] theorem startRun_offset (c : BitVec 1) : (s.startRun c).offset = s.offset := rfl
@[simp] theorem startRun_length (c : BitVec 1) : (s.startRun c).length = s.length := rfl
@[simp] theorem startRun_err (c : BitVec 1) : (s.startRun c).err = s.err := rfl
@[simp] theorem startRun_busy (c : BitVec 1) : (s.startRun c).busy = true := rfl
@[simp] theorem startRun_phase (c : BitVec 1) : (s.startRun c).phase = .running := rfl
@[simp] theorem startRun_idx (c : BitVec 1) : (s.startRun c).idx = s.window.start := rfl
@[simp] theorem startRun_endIdx (c : BitVec 1) : (s.startRun c).endIdx = s.window.stop := rfl
@[simp] theorem startRun_acc (c : BitVec 1) : (s.startRun c).acc = s.runSeed c := rfl
@[simp] theorem startRun_bitCount (c : BitVec 1) : (s.startRun c).bitCount = s.bitCount := rfl
@[simp] theorem startRun_shiftByte (c : BitVec 1) : (s.startRun c).shiftByte = s.shiftByte := rfl
@[simp] theorem startRun_memReq (c : BitVec 1) : (s.startRun c).memReq = true := rfl
@[simp] theorem startRun_wasReset (c : BitVec 1) : (s.startRun c).wasReset = s.wasReset := rfl
@[simp] theorem startRun_dataLen (c : BitVec 1) : (s.startRun c).dataLen = s.dataLen := rfl
@[simp] theorem startRun_datapath (c : BitVec 1) : (s.startRun c).datapath = s.datapath := rfl
@[simp] theorem startRun_data (c : BitVec 1) : (s.startRun c).data = s.data := rfl
@[simp] theorem startRun_hostAnswers (c : BitVec 1) : (s.startRun c).hostAnswers = s.hostAnswers := rfl
@[simp] theorem startRun_host (c : BitVec 1) : (s.startRun c).host = s.host := rfl
@[simp] theorem startRun_raced (c : BitVec 1) : (s.startRun c).raced = [] := rfl
@[simp] theorem startRun_requests (c : BitVec 1) : (s.startRun c).requests = s.window.start.setWidth 24 :: s.requests := rfl
@[simp] theorem startRun_draws (c : BitVec 1) : (s.startRun c).draws = s.draws := rfl

/-! #### startByte: a bit-serial BYTE starts -/

@[simp] theorem startByte_crc (d : Byte) : (s.startByte d).crc = s.crc := rfl
@[simp] theorem startByte_offset (d : Byte) : (s.startByte d).offset = s.offset := rfl
@[simp] theorem startByte_length (d : Byte) : (s.startByte d).length = s.length := rfl
@[simp] theorem startByte_err (d : Byte) : (s.startByte d).err = s.err := rfl
@[simp] theorem startByte_busy (d : Byte) : (s.startByte d).busy = true := rfl
@[simp] theorem startByte_phase (d : Byte) : (s.startByte d).phase = s.phase := rfl
@[simp] theorem startByte_idx (d : Byte) : (s.startByte d).idx = s.idx := rfl
@[simp] theorem startByte_endIdx (d : Byte) : (s.startByte d).endIdx = s.endIdx := rfl
@[simp] theorem startByte_acc (d : Byte) : (s.startByte d).acc = s.crc := rfl
@[simp] theorem startByte_bitCount (d : Byte) : (s.startByte d).bitCount = 0#3 := rfl
@[simp] theorem startByte_shiftByte (d : Byte) : (s.startByte d).shiftByte = d := rfl
@[simp] theorem startByte_memReq (d : Byte) : (s.startByte d).memReq = s.memReq := rfl
@[simp] theorem startByte_wasReset (d : Byte) : (s.startByte d).wasReset = s.wasReset := rfl
@[simp] theorem startByte_dataLen (d : Byte) : (s.startByte d).dataLen = s.dataLen := rfl
@[simp] theorem startByte_datapath (d : Byte) : (s.startByte d).datapath = s.datapath := rfl
@[simp] theorem startByte_data (d : Byte) : (s.startByte d).data = s.data := rfl
@[simp] theorem startByte_hostAnswers (d : Byte) : (s.startByte d).hostAnswers = s.hostAnswers := rfl
@[simp] theorem startByte_host (d : Byte) : (s.startByte d).host = s.host := rfl
@[simp] theorem startByte_raced (d : Byte) : (s.startByte d).raced = s.raced := rfl
@[simp] theorem startByte_requests (d : Byte) : (s.startByte d).requests = s.requests := rfl
@[simp] theorem startByte_draws (d : Byte) : (s.startByte d).draws = s.draws := rfl

/-! #### resetEdge: an edge with rst = 1 -/

@[simp] theorem resetEdge_crc : s.resetEdge.crc = Config.init := rfl
@[simp] theorem resetEdge_offset : s.resetEdge.offset = 0#24 := rfl
@[simp] theorem resetEdge_length : s.resetEdge.length = 0#24 := rfl
@[simp] theorem resetEdge_err : s.resetEdge.err = false := rfl
@[simp] theorem resetEdge_busy : s.resetEdge.busy = false := rfl
@[simp] theorem resetEdge_phase : s.resetEdge.phase = .idle := rfl
@[simp] theorem resetEdge_idx : s.resetEdge.idx = Config.freeIdx (s.draws + 1) := rfl
@[simp] theorem resetEdge_endIdx : s.resetEdge.endIdx = Config.freeEnd (s.draws + 1) := rfl
@[simp] theorem resetEdge_acc : s.resetEdge.acc = Config.freeAcc s.draws := rfl
@[simp] theorem resetEdge_bitCount : s.resetEdge.bitCount = Config.freeBitCount s.draws := rfl
@[simp] theorem resetEdge_shiftByte : s.resetEdge.shiftByte = Config.freeShiftByte s.draws := rfl
@[simp] theorem resetEdge_memReq : s.resetEdge.memReq = false := rfl
@[simp] theorem resetEdge_wasReset : s.resetEdge.wasReset = true := rfl
@[simp] theorem resetEdge_dataLen : s.resetEdge.dataLen = s.dataLen := rfl
@[simp] theorem resetEdge_datapath : s.resetEdge.datapath = s.datapath := rfl
@[simp] theorem resetEdge_data : s.resetEdge.data = s.data := rfl
@[simp] theorem resetEdge_hostAnswers : s.resetEdge.hostAnswers = s.hostAnswers := rfl
@[simp] theorem resetEdge_host : s.resetEdge.host = s.host := rfl
@[simp] theorem resetEdge_raced : s.resetEdge.raced = [] := rfl
@[simp] theorem resetEdge_requests : s.resetEdge.requests = s.requests := rfl
@[simp] theorem resetEdge_draws : s.resetEdge.draws = s.draws + 2 := rfl

/-! #### unspecified: a cycle before the first reset -/

@[simp] theorem unspecified_crc : s.unspecified.crc = (Config.freeRegisters s.draws).crc := rfl
@[simp] theorem unspecified_offset : s.unspecified.offset = (Config.freeRegisters s.draws).offset := rfl
@[simp] theorem unspecified_length : s.unspecified.length = (Config.freeRegisters s.draws).length := rfl
@[simp] theorem unspecified_err : s.unspecified.err = (Config.freeRegisters s.draws).err := rfl
@[simp] theorem unspecified_busy : s.unspecified.busy = (Config.freeRegisters s.draws).busy := rfl
@[simp] theorem unspecified_phase : s.unspecified.phase = if (Config.freeRegisters s.draws).running then .running else .idle := rfl
@[simp] theorem unspecified_idx : s.unspecified.idx = (Config.freeRegisters s.draws).idx := rfl
@[simp] theorem unspecified_endIdx : s.unspecified.endIdx = (Config.freeRegisters s.draws).endIdx := rfl
@[simp] theorem unspecified_acc : s.unspecified.acc = (Config.freeRegisters s.draws).acc := rfl
@[simp] theorem unspecified_bitCount : s.unspecified.bitCount = (Config.freeRegisters s.draws).bitCount := rfl
@[simp] theorem unspecified_shiftByte : s.unspecified.shiftByte = (Config.freeRegisters s.draws).shiftByte := rfl
@[simp] theorem unspecified_memReq : s.unspecified.memReq = (Config.freeRegisters s.draws).memReq := rfl
@[simp] theorem unspecified_wasReset : s.unspecified.wasReset = s.wasReset := rfl
@[simp] theorem unspecified_dataLen : s.unspecified.dataLen = s.dataLen := rfl
@[simp] theorem unspecified_datapath : s.unspecified.datapath = s.datapath := rfl
@[simp] theorem unspecified_data : s.unspecified.data = s.data := rfl
@[simp] theorem unspecified_hostAnswers : s.unspecified.hostAnswers = s.hostAnswers := rfl
@[simp] theorem unspecified_host : s.unspecified.host = s.host := rfl
@[simp] theorem unspecified_raced : s.unspecified.raced = s.raced := rfl
@[simp] theorem unspecified_requests : s.unspecified.requests = s.requests := rfl
@[simp] theorem unspecified_draws : s.unspecified.draws = s.draws + 1 := rfl

end State

end Sys2Proof.Machine
end

