-- ==== Sys2Proof/Laws/Memory.lean ====
section
/-! SUPPORT. The data buffer: what a read after a write gives, and that a write keeps the canonical form. -/

namespace Sys2Proof.Machine

theorem Memory.read_place (a : Nat) (b : Byte) (m : Memory) (i : Nat)
    (h : ∀ x ∈ m, a < x.1) :
    Memory.read (Memory.place a b m) i = if i = a then b else Memory.read m i := by
  have absent : ∀ m : Memory, (∀ x ∈ m, a < x.1) → Memory.read m a = Memory.unlisted := by
    intro m
    induction m with
    | nil => intro _; rfl
    | cons x m ih =>
      intro h
      have hx := h x (by simp)
      rw [Memory.read, if_neg (by omega)]
      exact ih fun y hy => h y (by simp [hy])
  unfold Memory.place
  split
  · next hb =>
    split
    · next hi => rw [hi, absent m h, hb]
    · rfl
  · rfl

/-- Reading after writing: the byte written at its own index, the old byte everywhere else. -/
theorem Memory.read_write (m : Memory) (a : Nat) (b : Byte) (i : Nat) (h : Memory.wf m) :
    Memory.read (Memory.write m a b) i = if i = a then b else Memory.read m i := by
  induction m with
  | nil => exact Memory.read_place a b [] i (by simp)
  | cons x m ih =>
    obtain ⟨k, c⟩ := x
    have hk : ∀ y ∈ m, k < y.1 := (List.pairwise_cons.mp h.1).1
    have hm : Memory.wf m := ⟨(List.pairwise_cons.mp h.1).2, fun y hy => h.2 y (by simp [hy])⟩
    unfold Memory.write
    split
    · next hak =>
      apply Memory.read_place
      intro y hy
      rcases List.mem_cons.mp hy with rfl | hy
      · exact hak
      · exact Nat.lt_trans hak (hk y hy)
    · split
      · next hak =>
        subst hak
        rw [Memory.read_place _ _ _ _ hk, Memory.read]
        split <;> rfl
      · next hak =>
        rw [Memory.read, ih hm, Memory.read]
        split
        · next hik => rw [if_neg (by omega)]
        · rfl

theorem Memory.mem_place {a : Nat} {b : Byte} {m : Memory} {x : Host.Cell} (h : x ∈ Memory.place a b m) :
    x.1 = a ∨ x ∈ m := by
  unfold Memory.place at h
  split at h
  · exact .inr h
  · rcases List.mem_cons.mp h with rfl | h
    · exact .inl rfl
    · exact .inr h

/-- A written buffer lists the index written and what was listed before, nothing else. -/
theorem Memory.mem_write {m : Memory} {a : Nat} {b : Byte} {x : Host.Cell} (h : x ∈ Memory.write m a b) :
    x.1 = a ∨ x ∈ m := by
  induction m with
  | nil => exact Memory.mem_place h
  | cons y m ih =>
    obtain ⟨k, c⟩ := y
    unfold Memory.write at h
    split at h
    · exact Memory.mem_place h
    · split at h
      · exact (Memory.mem_place h).imp_right fun h => by simp [h]
      · rcases List.mem_cons.mp h with rfl | h
        · simp
        · exact (ih h).imp_right fun h => by simp [h]

theorem Memory.place_wf (a : Nat) (b : Byte) (m : Memory) (h : Memory.wf m) (ha : ∀ x ∈ m, a < x.1) :
    Memory.wf (Memory.place a b m) := by
  unfold Memory.place
  split
  · exact h
  · next hb =>
    refine ⟨List.pairwise_cons.mpr ⟨ha, h.1⟩, fun x hx => ?_⟩
    rcases List.mem_cons.mp hx with rfl | hx
    · exact hb
    · exact h.2 x hx

/-- A write keeps the canonical form. -/
theorem Memory.write_wf (m : Memory) (a : Nat) (b : Byte) (h : Memory.wf m) : Memory.wf (Memory.write m a b) := by
  induction m with
  | nil => exact Memory.place_wf a b [] h (by simp)
  | cons x m ih =>
    obtain ⟨k, c⟩ := x
    have hk : ∀ y ∈ m, k < y.1 := (List.pairwise_cons.mp h.1).1
    have hm : Memory.wf m := ⟨(List.pairwise_cons.mp h.1).2, fun y hy => h.2 y (by simp [hy])⟩
    unfold Memory.write
    split
    · next hak =>
      refine Memory.place_wf a b _ h fun y hy => ?_
      rcases List.mem_cons.mp hy with rfl | hy
      · exact hak
      · exact Nat.lt_trans hak (hk y hy)
    · split
      · next hak => subst hak; exact Memory.place_wf a b m hm hk
      · refine ⟨List.pairwise_cons.mpr ⟨fun y hy => ?_, (ih hm).1⟩, fun y hy => ?_⟩
        · rcases Memory.mem_write hy with hy | hy
          · show k < y.1
            omega
          · exact hk y hy
        · rcases List.mem_cons.mp hy with rfl | hy
          · exact h.2 _ (by simp)
          · exact (ih hm).2 y hy

/-- The reset buffer is in canonical form. -/
theorem reset_data_wf : Memory.wf State.reset.data := by simp [State.reset, Memory.wf]

/-- Two canonical buffers that read alike everywhere are the same list. -/
theorem Memory.eq_of_read_eq (m n : Memory) (hm : Memory.wf m) (hn : Memory.wf n)
    (h : ∀ i, Memory.read m i = Memory.read n i) : m = n := by
  have absent : ∀ (m : Memory) (a : Nat), (∀ x ∈ m, a < x.1) → Memory.read m a = Memory.unlisted := by
    intro m a
    induction m with
    | nil => intro _; rfl
    | cons x m ih =>
      intro h
      have hx := h x (by simp)
      rw [Memory.read, if_neg (by omega)]
      exact ih fun y hy => h y (by simp [hy])
  induction m generalizing n with
  | nil =>
    cases n with
    | nil => rfl
    | cons y n =>
      have := h y.1
      rw [Memory.read, Memory.read, if_pos rfl] at this
      exact absurd this.symm (hn.2 y (by simp))
  | cons x m ih =>
    have hxm : ∀ y ∈ m, x.1 < y.1 := (List.pairwise_cons.mp hm.1).1
    have hm' : Memory.wf m := ⟨(List.pairwise_cons.mp hm.1).2, fun y hy => hm.2 y (by simp [hy])⟩
    cases n with
    | nil =>
      have := h x.1
      rw [Memory.read, Memory.read, if_pos rfl] at this
      exact absurd this (hm.2 x (by simp))
    | cons y n =>
      have hyn : ∀ z ∈ n, y.1 < z.1 := (List.pairwise_cons.mp hn.1).1
      have hn' : Memory.wf n := ⟨(List.pairwise_cons.mp hn.1).2, fun z hz => hn.2 z (by simp [hz])⟩
      have key : x.1 = y.1 := by
        rcases Nat.lt_trichotomy x.1 y.1 with hlt | heq | hgt
        · have := h x.1
          rw [Memory.read, if_pos rfl, absent (y :: n) x.1 (by
            intro z hz
            rcases List.mem_cons.mp hz with rfl | hz
            · exact hlt
            · exact Nat.lt_trans hlt (hyn z hz))] at this
          exact absurd this (hm.2 x (by simp))
        · exact heq
        · have := h y.1
          rw [absent (x :: m) y.1 (by
            intro z hz
            rcases List.mem_cons.mp hz with rfl | hz
            · exact hgt
            · exact Nat.lt_trans hgt (hxm z hz)), Memory.read, if_pos rfl] at this
          exact absurd this.symm (hn.2 y (by simp))
      have hval : x.2 = y.2 := by
        have := h x.1
        rw [Memory.read, if_pos rfl, Memory.read, if_pos key] at this
        exact this
      rw [show x = y from Prod.ext key hval]
      congr 1
      refine ih n hm' hn' fun i => ?_
      have := h i
      rw [Memory.read, Memory.read] at this
      by_cases hi : i = x.1
      · rw [absent m i (by intro z hz; rw [hi]; exact hxm z hz), absent n i (by
          intro z hz; rw [hi, key]; exact hyn z hz)]
      · rwa [if_neg hi, if_neg (key ▸ hi)] at this

end Sys2Proof.Machine
end

