-- ==== Sys2Proof/Laws/Window.lean ====
section
/-! SUPPORT. The effective window as numbers, and what RUN's loop and RUN itself can do, said once. -/

namespace Sys2Proof.Machine

theorem effWindow_start (o l : Addr) (n : DataLen) : (effWindow o l n).start.toNat = o.toNat := by
  simp [effWindow]; omega

theorem effWindow_stop (o l : Addr) (n : DataLen) :
    (effWindow o l n).stop.toNat = min (o.toNat + l.toNat) n.val := by
  have ho := o.isLt
  have hl := l.isLt
  have hn := n.isLt
  simp only [effWindow]
  split
  · next h =>
    simp only [BitVec.lt_def, BitVec.toNat_add, BitVec.toNat_setWidth, BitVec.toNat_ofNat] at h ⊢
    omega
  · next h =>
    simp only [BitVec.lt_def, BitVec.toNat_add, BitVec.toNat_setWidth, BitVec.toNat_ofNat] at h ⊢
    omega

theorem effWindow_count (o l : Addr) (n : DataLen) :
    (effWindow o l n).count.toNat = (effWindow o l n).stop.toNat - (effWindow o l n).start.toNat := by
  show (if (effWindow o l n).start < (effWindow o l n).stop
    then (effWindow o l n).stop - (effWindow o l n).start else 0#25).toNat = _
  generalize (effWindow o l n).start = a
  generalize (effWindow o l n).stop = b
  split
  · next h =>
    rw [BitVec.lt_def] at h
    rw [BitVec.toNat_sub_of_le (by rw [BitVec.le_def]; omega)]
  · next h =>
    rw [BitVec.lt_def] at h
    simp; omega

/-- The window's end is inside the buffer (R44). -/
theorem window_stop_le (s : State) : s.window.stop.toNat ≤ s.dataLen.val := by
  rw [State.window, effWindow_stop]; omega

theorem window_count (s : State) : s.window.count.toNat = s.window.stop.toNat - s.window.start.toNat :=
  effWindow_count _ _ _

theorem window_start (s : State) : s.window.start.toNat = s.offset.toNat := effWindow_start _ _ _

/-- A window that is not empty starts before it ends. -/
theorem window_start_lt_stop (s : State) (h : s.window.count ≠ 0#25) : s.window.start < s.window.stop := by
  rw [BitVec.lt_def]
  have := window_count s
  have : s.window.count.toNat ≠ 0 := fun h' => h (BitVec.eq_of_toNat_eq (by simpa using h'))
  omega

/-- RUN's loop, inside the buffer: the CRC of the bytes from `idx` on, and their indices, newest first. -/
theorem runLoop_eq (s : State) (fuel : Nat) (idx stop : Index) (acc : Crc) (reqs : List Addr)
    (hfuel : idx.toNat + fuel = stop.toNat) (hstop : stop.toNat ≤ s.dataLen.val) :
    s.runLoop fuel idx stop acc reqs = (crcOf acc (s.windowBytes idx.toNat fuel),
      ((List.range' idx.toNat fuel).map (BitVec.ofNat 24)).reverse ++ reqs) := by
  induction fuel generalizing idx acc reqs with
  | zero => rfl
  | succ n ih =>
    have hlt : idx < stop := by rw [BitVec.lt_def]; omega
    have hnext : (idx + 1#25).toNat = idx.toNat + 1 := by
      have := stop.isLt
      rw [BitVec.toNat_add, BitVec.toNat_ofNat]; omega
    rw [State.runLoop, if_pos hlt, State.memRead, if_pos (by omega)]
    rw [ih (idx + 1#25) _ _ (by omega), hnext]
    have hi : BitVec.ofNat 24 idx.toNat = idx.setWidth 24 := BitVec.eq_of_toNat_eq (by simp)
    simp [State.windowBytes, List.range'_succ, crcOf, hi]

/-- RUN on an empty window: no read. -/
theorem runLoop_zero (s : State) (idx stop : Index) (acc : Crc) (reqs : List Addr) :
    s.runLoop 0 idx stop acc reqs = (acc, reqs) := rfl

/-- What RUN's loop answers for the effective window. -/
theorem runLoop_window (s : State) (acc : Crc) (reqs : List Addr) :
    s.runLoop s.window.count.toNat s.window.start s.window.stop acc reqs =
      (crcOf acc (s.windowBytes s.window.start.toNat s.window.count.toNat),
        ((List.range' s.window.start.toNat s.window.count.toNat).map (BitVec.ofNat 24)).reverse ++ reqs) := by
  by_cases h : s.window.count = 0#25
  · rw [h]; rfl
  · apply runLoop_eq
    · have h1 := window_start_lt_stop s h
      rw [BitVec.lt_def] at h1
      rw [window_count]; omega
    · exact window_stop_le s

/-- Everything RUN can do: it completes with the CRC and the indices of its window, or, on a window that is not empty and
under a host that does not answer, stays in progress. -/
theorem execRun_eq (c : BitVec 1) (s : State) :
    execRun c s =
      if s.window.count = 0#25 ∨ s.hostAnswers = true then
        .next { s.completeRun (crcOf (s.runSeed c) (s.windowBytes s.window.start.toNat s.window.count.toNat)) with
          requests := ((List.range' s.window.start.toNat s.window.count.toNat).map (BitVec.ofNat 24)).reverse
            ++ s.requests }
      else .next (s.startRun c) := by
  rw [execRun, runLoop_window]

end Sys2Proof.Machine
end

