-- ==== Sys2Proof/Laws/Step.lean ====
section
/-! SUPPORT. The step by what the host does next, an edge by the priority of R107, and what an edge with a command in
progress can change, each said once. -/

namespace Sys2Proof.Machine

/-! ### The step, by the host's next action -/

theorem step_quiet (s : State) (h : s.host = []) : step s = clockEdge s.quietPins s := by simp [step, h]

theorem step_edge (s : State) (p : Pins) (rest : List HostAction) (h : s.host = .edge p :: rest) :
    step s = clockEdge p { s with host := rest } := by simp [step, h]

theorem step_write (s : State) (a : Addr) (b : Byte) (rest : List HostAction) (h : s.host = .write a b :: rest) :
    step s = hostWrite a b { s with host := rest } := by simp [step, h]

theorem step_present_ready (s : State) (w : Word) (rest : List HostAction) (h : s.host = .present w :: rest)
    (hr : s.ready) : step s = execWord w { s with host := rest } := by simp [step, h, hr]

theorem step_present_busy (s : State) (w : Word) (rest : List HostAction) (h : s.host = .present w :: rest)
    (hr : s.wasReset = true) (hb : s.busy = true) : step s = clockEdge (s.holdPins w) s := by simp [step, h, hr, hb]

/-! ### A word -/

/-- An illegal word, as one architectural step. -/
theorem execWord_illegal (w : Word) (c : IllegalCause) (s : State) (hr : s.ready) (h : decode w = .illegal c) :
    execWord w s = .next s.setErr := by simp [execWord, hr, h, raiseIllegalCommand]

/-- A legal word. -/
theorem execWord_legal (w : Word) (i : Instr) (s : State) (hr : s.ready) (h : decode w = .legal i) :
    execWord w s = exec i s := by simp [execWord, hr, h]

/-- While a command is in progress no word is taken. -/
theorem execWord_busy (w : Word) (s : State) (hr : s.wasReset = true) (hb : s.busy = true) :
    execWord w s = .next s := by simp [execWord, hr, hb]

/-- Before reset nothing is specified. -/
theorem execWord_unreset (w : Word) (s : State) (hr : s.wasReset = false) :
    execWord w s = .next s.unspecified := by simp [execWord, hr]

/-! ### An edge, by the priority of R107 -/

theorem clockEdge_reset (p : Pins) (s : State) (h : p.rst = true) : clockEdge p s = .next s.resetEdge := by
  simp [clockEdge, h]

theorem clockEdge_unreset (p : Pins) (s : State) (h : p.rst = false) (hr : s.wasReset = false) :
    clockEdge p s = .next s.unspecified := by simp [clockEdge, h, hr]

theorem clockEdge_busy (p : Pins) (s : State) (h : p.rst = false) (hr : s.wasReset = true) (hb : s.busy = true) :
    clockEdge p s = .next (s.tick.busyEdge p) := by simp [clockEdge, h, hr, hb]

theorem commandAccepted_ready (p : Pins) (s : State) (h : p.rst = false) (hr : s.ready) :
    commandAccepted p s = p.cmdValid := by simp [commandAccepted, cmdReady, State.output, h, hr]

theorem clockEdge_accept (p : Pins) (s : State) (h : p.rst = false) (hv : p.cmdValid = true) (hr : s.ready) :
    clockEdge p s = acceptWord p.cmdWord s.tick := by
  simp [clockEdge, h, hv, hr, commandAccepted_ready p s h hr]

theorem clockEdge_idle (p : Pins) (s : State) (h : p.rst = false) (hv : p.cmdValid = false) (hr : s.ready) :
    clockEdge p s = .next s.tick := by
  simp [clockEdge, h, hv, hr, commandAccepted_ready p s h hr]

/-! ### An edge with a command in progress -/

/-- What no command in progress changes: the window registers, ERR, and the configuration. -/
structure State.SameFrame (s t : State) : Prop where
  err : t.err = s.err
  offset : t.offset = s.offset
  length : t.length = s.length
  wasReset : t.wasReset = s.wasReset
  dataLen : t.dataLen = s.dataLen
  datapath : t.datapath = s.datapath
  data : t.data = s.data
  hostAnswers : t.hostAnswers = s.hostAnswers
  host : t.host = s.host

theorem advance_frame (acc : Crc) (s : State) : s.SameFrame (s.advance acc) := by
  unfold State.advance
  split <;> constructor <;> simp

theorem shiftEdge_frame (s : State) : s.SameFrame s.shiftEdge := by
  unfold State.shiftEdge
  simp only
  split
  · unfold State.byteShifted
    split
    · constructor <;> simp
    · exact advance_frame _ _
  · constructor <;> simp

theorem takeByte_frame (d : Byte) (s : State) : s.SameFrame (s.takeByte d) := by
  unfold State.takeByte
  split
  · exact advance_frame _ _
  · constructor <;> simp

/-- An edge with a command in progress keeps the frame. -/
theorem busyEdge_frame (p : Pins) (s : State) : s.SameFrame (s.busyEdge p) := by
  unfold State.busyEdge
  split
  · split
    · exact takeByte_frame _ _
    · constructor <;> rfl
  · exact shiftEdge_frame s

/-- The next byte of a RUN: the next index is requested inside the window, or the RUN completes. -/
theorem advance_eq (acc : Crc) (s : State) :
    s.advance acc = if s.idx + 1#25 < s.endIdx then State.request (s.idx + 1#25) { s with acc := acc }
      else s.completeRun acc := rfl

/-- What the bit-serial datapath does with an answered byte. -/
theorem takeByte_bitSerial (d : Byte) (s : State) (h : s.datapath = .bitSerial) :
    s.takeByte d = { s with shiftByte := d, bitCount := 0#3, memReq := false } := by
  unfold State.takeByte
  split
  · next h' => rw [h] at h'; cases h'
  · rfl

/-- What the byte-parallel datapath does with an answered byte. -/
theorem takeByte_byteParallel (d : Byte) (s : State) (h : s.datapath = .byteParallel) :
    s.takeByte d = s.advance (updByteGates s.acc d) := by
  unfold State.takeByte
  split
  · rfl
  · next h' => rw [h] at h'; cases h'

/-! ### The host's pending actions -/

/-- No command touches what the host has pending. -/
theorem exec_host (i : Instr) (s t : State) (h : exec i s = .next t) : t.host = s.host := by
  cases i with
  | run c =>
    rw [show exec (.run c) s = execRun c s from rfl, execRun_eq] at h
    split at h <;> cases h <;> rfl
  | _ => cases h; rfl

theorem execWord_host (w : Word) (s t : State) (h : execWord w s = .next t) : t.host = s.host := by
  unfold execWord at h
  split at h
  · split at h
    · exact exec_host _ _ _ h
    · cases h; rfl
  · split at h <;> cases h <;> rfl

theorem acceptWord_host (w : Word) (s t : State) (h : acceptWord w s = .next t) : t.host = s.host := by
  unfold acceptWord at h
  split at h
  · next i _ =>
    cases i with
    | byte d => simp only [acceptInstr, acceptByte] at h; split at h <;> cases h <;> rfl
    | run c =>
      simp only [acceptInstr, acceptRun] at h
      split at h
      · exact exec_host _ _ _ h
      · cases h; rfl
    | _ => cases h; rfl
  · cases h; rfl

theorem clockEdge_host (p : Pins) (s t : State) (h : clockEdge p s = .next t) : t.host = s.host := by
  unfold clockEdge at h
  split at h
  · cases h; rfl
  split at h
  · cases h; rfl
  split at h
  · cases h; exact (busyEdge_frame p s.tick).host
  split at h
  · exact acceptWord_host _ s.tick t h
  · cases h; rfl

/-- A step takes the host's next action from the list, or holds it. -/
theorem step_host (s t : State) (h : step s = .next t) : t.host = s.host ∨ t.host = s.host.tail := by
  unfold step at h
  split at h
  · exact .inl (clockEdge_host _ s t h)
  · next p rest hh => exact .inr (by rw [clockEdge_host p _ t h, hh]; rfl)
  · next a b rest hh =>
    unfold hostWrite at h
    split at h <;> cases h
    exact .inr (by rw [hh]; rfl)
  · next w rest hh =>
    split at h
    · exact .inr (by rw [execWord_host w _ t h, hh]; rfl)
    · have e := clockEdge_host _ _ t h
      split at e
      · exact .inr (by rw [e, hh]; rfl)
      · exact .inl e

/-! ### The host's write -/

/-- Everything a host write can do. -/
theorem hostWrite_eq (a : Addr) (b : Byte) (s t : State) (h : hostWrite a b s = .next t) :
    a.toNat < s.dataLen.val ∧
    t = { s with
      data := Memory.write s.data a.toNat b
      raced := if s.inRunningWindow a.toNat then a.toNat :: s.raced.filter (· ≠ a.toNat) else s.raced } := by
  unfold hostWrite at h
  split at h
  · next ha => cases h; exact ⟨ha, rfl⟩
  · cases h

end Sys2Proof.Machine
end

