-- ==== Sys2Proof/Laws/Observe.lean ====
section
/-! SUPPORT. The outputs before and after the first reset, what the next step takes from the port, and where there is no
observation, each said once. -/

namespace Sys2Proof.Machine

/-- After reset an output is its function of the registers. -/
theorem output_reset {α : Type} (s : State) (v : α) (free : Outputs → α) (h : s.wasReset = true) :
    s.output v free = v := by simp [State.output, h]

/-- Before reset an output is a free value. -/
theorem output_unreset {α : Type} (s : State) (v : α) (free : Outputs → α) (h : s.wasReset = false) :
    s.output v free = free (Config.freeOutputs s.draws) := by simp [State.output, h]

theorem wordTaken_present (s : State) (w : Word) (rest : List HostAction) (h : s.host = .present w :: rest)
    (hr : s.ready) : s.wordTaken = some w := by simp [State.wordTaken, h, hr]

theorem wordTaken_edge (s : State) (p : Pins) (rest : List HostAction) (h : s.host = .edge p :: rest)
    (hr : s.wasReset = true) (ha : commandAccepted p s = true) : s.wordTaken = some p.cmdWord := by
  simp [State.wordTaken, h, hr, ha]

theorem resetTaken_edge (s : State) (p : Pins) (rest : List HostAction) (h : s.host = .edge p :: rest) :
    s.resetTaken = p.rst := by simp [State.resetTaken, h]

/-- Past its first word a sequence with `rst` = 1 has no observation. -/
theorem observeBegun_reset (n : Nat) (s : State) (h : s.resetTaken = true) : observeBegun (n + 1) s = none := by
  simp [observeBegun, h]

/-- Past its first word a sequence is observed from its next state. -/
theorem observeBegun_step (n : Nat) (s t : State) (h : s.resetTaken = false) (hs : step s = .next t) :
    observeBegun (n + 1) s = observeBegun n t := by
  simp [observeBegun, h, hs]

end Sys2Proof.Machine
end

