-- ==== Sys2Proof/Laws/PerInstr.lean ====
section
/-! SUPPORT. What holds of every command as syntax, one lemma per constructor. -/

namespace Sys2Proof.Laws.EncodesItsRow

/-- The command's word selects the row of its mnemonic in the opcode map, whatever its operand (R62, R68). -/
def Statement (i : Instr) : Prop := ∃ r ∈ opcodeMap, r.mnemonic = i.mnemonic ∧ r.selects (encode i) = true

theorem nop : Statement .nop := by unfold Statement; decide

theorem init : Statement .init := by unfold Statement; decide

theorem byte (d : Byte) : Statement (.byte d) := by
  refine ⟨⟨"BYTE", .b8, 0x02000000#32, 0xFFFFFF00#32⟩, by decide, rfl, ?_⟩
  simp only [OpcodeRow.selects, beq_iff_eq]
  apply BitVec.eq_of_getLsbD_eq
  intro i hi
  interval_cases i <;> simp [encode]

theorem bit (x : BitVec 1) : Statement (.bit x) := by
  unfold Statement
  revert x
  decide

theorem setofs (v : Addr) : Statement (.setofs v) := by
  refine ⟨⟨"SETOFS", .a24, 0x04000000#32, 0xFF000000#32⟩, by decide, rfl, ?_⟩
  simp only [OpcodeRow.selects, beq_iff_eq]
  apply BitVec.eq_of_getLsbD_eq
  intro i hi
  interval_cases i <;> simp [encode]

theorem setlen (v : Addr) : Statement (.setlen v) := by
  refine ⟨⟨"SETLEN", .a24, 0x05000000#32, 0xFF000000#32⟩, by decide, rfl, ?_⟩
  simp only [OpcodeRow.selects, beq_iff_eq]
  apply BitVec.eq_of_getLsbD_eq
  intro i hi
  interval_cases i <;> simp [encode]

theorem run (c : BitVec 1) : Statement (.run c) := by
  unfold Statement
  revert c
  decide

theorem clrerr : Statement .clrerr := by unfold Statement; decide

end Sys2Proof.Laws.EncodesItsRow
end

