-- ==== Sys2Proof/Tests/Slice0.lean ====
section
/-! SUPPORT. Tests. Every expected value is the spec's: spec/95_test_vectors.md (V-…, P…) and 30_encoding.md R71. Then one
named witness per statement that has hypotheses. -/

namespace Sys2Proof.Tests

open Sys2Proof Sys2Proof.Machine

/-! ### Decoding: V-E1 and R71 -/

theorem test_decode_nop : decode 0b00000000_00000000_00000000_00000000#32 = .legal .nop := by decide

theorem test_decode_init : decode 0b00000001_00000000_00000000_00000000#32 = .legal .init := by decide

theorem test_decode_byte : decode 0b00000010_00000000_00000000_00110001#32 = .legal (.byte 0x31#8) := by decide

theorem test_decode_bit : decode 0b00000011_00000000_00000000_00000001#32 = .legal (.bit 1#1) := by decide

theorem test_decode_setofs : decode 0b00000100_11111111_11111111_11111111#32 = .legal (.setofs 0xFFFFFF#24) := by decide

theorem test_decode_setlen : decode 0b00000101_00000000_00000000_00001001#32 = .legal (.setlen 9#24) := by decide

theorem test_decode_run : decode 0b00000110_00000000_00000000_00000000#32 = .legal (.run 0#1) := by decide

theorem test_decode_run_c : decode 0b00000110_00000000_00000000_00000001#32 = .legal (.run 1#1) := by decide

theorem test_decode_clrerr : decode 0b00000111_00000000_00000000_00000000#32 = .legal .clrerr := by decide

theorem test_decode_illegal_low : [0x00000001#32, 0x02000131#32, 0x03000002#32, 0x06000002#32, 0x07000001#32].map decode =
    [.illegal (.reservedBits .z), .illegal (.reservedBits .b8), .illegal (.reservedBits .b1),
     .illegal (.reservedBits .r1), .illegal (.reservedBits .z)] := by decide

theorem test_decode_illegal_high : [0x01800000#32, 0x08000000#32, 0xFFFFFFFF#32].map decode =
    [.illegal (.reservedBits .z), .illegal .undefinedOpcode, .illegal .undefinedOpcode] := by decide

/-- No two rows of the opcode map select a common word (R62). -/
theorem test_rows_disjoint : opcodeMap.Pairwise fun r q => (r.matchBits ^^^ q.matchBits) &&& (r.mask &&& q.mask) ≠ 0#32 := by
  decide

/-- A word of more than 32 bits is no command (R67). -/
theorem test_table_word_length : decodeTableWord 40 0x0131000000 = none ∧
    decodeTableWord 32 0x02000031 = some (.byte 0x31#8) := by decide

/-! ### Well-formedness: what each check refuses (R68, R70) -/

theorem test_wf_byte : (SourceLine.byte 256).wellFormed = false ∧ (SourceLine.byte 255).wellFormed = true := by decide

theorem test_wf_bit : (SourceLine.bit 2).wellFormed = false ∧ (SourceLine.bit 1).wellFormed = true := by decide

theorem test_wf_setofs : (SourceLine.setofs 0x1000000).wellFormed = false ∧
    (SourceLine.setofs 0xFFFFFF).wellFormed = true := by decide

theorem test_wf_setlen : (SourceLine.setlen 0x1000000).wellFormed = false ∧
    (SourceLine.setlen 0xFFFFFF).wellFormed = true := by decide

theorem test_wf_word : (SourceLine.word 0x100000000).wellFormed = false ∧
    (SourceLine.word 0xFFFFFFFF).wellFormed = true := by decide

theorem test_wf_bytes : (SourceLine.bytes [255, 256]).wellFormed = false ∧
    (SourceLine.bytes [0, 255]).wellFormed = true := by decide

theorem test_wf_str : (SourceLine.str ['A', 'é']).wellFormed = false ∧ (SourceLine.str ['A']).wellFormed = true := by decide

theorem test_wf_bits8 : (SourceLine.bits8 256).wellFormed = false ∧ (SourceLine.bits8 255).wellFormed = true := by decide

theorem test_wf_win : (SourceLine.win 0x1000000 0).wellFormed = false ∧ (SourceLine.win 0 0x1000000).wellFormed = false ∧
    (SourceLine.win 0xFFFFFF 0xFFFFFF).wellFormed = true := by decide

theorem test_wf_crcwin : (SourceLine.crcwin 0x1000000 0).wellFormed = false ∧
    (SourceLine.crcwin 0 0x1000000).wellFormed = false ∧ (SourceLine.crcwin 1 9).wellFormed = true := by decide

/-! ### Source text (R68 to R71) -/

theorem test_text_comment :
    assembleText ['N', 'O', 'P', ' ', ';', ' ', 'x'] = some [0x00000000#32] ∧ assembleText [';', 'x'] = some [] := by decide

theorem test_text_str : assembleText ['S', 'T', 'R', ' ', '"', '1', '2', '"'] = some [0x02000031#32, 0x02000032#32] := by
  decide

/-- R71: `.word`. -/
theorem test_text_word :
    assembleText ['.', 'w', 'o', 'r', 'd', ' ', '0', 'x', '0', '8', '0', '0', '0', '0', '0', '0'] =
      some [0x08000000#32] := by decide

theorem test_text_crcwin : assembleText ['C', 'R', 'C', 'W', 'I', 'N', ' ', '1', ',', ' ', '9'] =
    some [0x04000001#32, 0x05000009#32, 0x06000000#32] := by decide

theorem test_text_out_of_range : assembleText ['B', 'Y', 'T', 'E', ' ', '2', '5', '6'] = none := by decide

theorem test_text_bits8 : assembleText ['B', 'I', 'T', 'S', '8', ' ', '0', 'x', '3', '1'] =
    some [0x03000000#32, 0x03000000#32, 0x03000001#32, 0x03000001#32,
      0x03000000#32, 0x03000000#32, 0x03000000#32, 0x03000001#32] := by decide

/-! ### Small states -/

/-- One field of a next state. -/
def field {α : Type} (f : State → α) : Host.Outcome State Fault Refusal → Option α
  | .next t => some (f t)
  | .fault _ => none
  | .refused _ => none

/-- The first step after `s` with the word presented. -/
def first (w : Nat) (s : State) : Host.Outcome State Fault Refusal := step (s.withFetchWord 32 w)

/-- The buffer of V-W1: 00, then "123456789", then FF. -/
def buffer11 : Memory :=
  [(1, 0x31#8), (2, 0x32#8), (3, 0x33#8), (4, 0x34#8), (5, 0x35#8), (6, 0x36#8), (7, 0x37#8), (8, 0x38#8), (9, 0x39#8),
   (10, 0xFF#8)]

/-- The configuration of V-W1 with a window. -/
def windowed (o l : Addr) : State := { State.reset with dataLen := 11, data := buffer11, offset := o, length := l }

/-- A RUN of nine bytes at its first request. -/
def running : State := (windowed 1#24 9#24).startRun 0#1

/-- A RUN at the last byte of a window. -/
def runningLast : State := (windowed 10#24 1#24).startRun 0#1

/-- An edge with a word at the port. -/
def presenting (w : Word) : Pins := ⟨false, true, w, false, 0x00#8⟩

/-- An edge with nothing at the port. -/
def quiet : Pins := ⟨false, false, 0#32, false, 0x00#8⟩

/-- An edge that answers a read. -/
def answering (d : Byte) : Pins := ⟨false, false, 0#32, true, d⟩

/-- An edge with reset. -/
def resetting : Pins := ⟨true, true, 0x02000031#32, true, 0x00#8⟩

theorem running_window : running.window.stop = 10#25 ∧ running.window.count = 9#25 := by decide

/-- A RUN in progress is in the invariant. -/
theorem running_inv : running.Inv where
  reset_done := rfl
  data_wf := by decide
  data_bound := by decide
  requests_bound := fun a ha => by
    rcases List.mem_singleton.mp (show a ∈ [1#24] from ha) with rfl
    decide
  idle := by decide
  undisturbed := by decide
  req_running := by decide
  running := by decide
  shifting := by decide
  raced_window := by decide

theorem runningLast_inv : runningLast.Inv where
  reset_done := rfl
  data_wf := by decide
  data_bound := by decide
  requests_bound := fun a ha => by
    rcases List.mem_singleton.mp (show a ∈ [10#24] from ha) with rfl
    decide
  idle := by decide
  undisturbed := by decide
  req_running := by decide
  running := by decide
  shifting := by decide
  raced_window := by decide

theorem reset_inv : State.reset.Inv := by constructor <;> simp [State.reset, Memory.wf]

/-! ### One step of each command -/

/-- V-K1. -/
theorem test_nop : field (fun t => (t.crc, t.err)) (first 0x00000000 State.reset) = some (0xFFFF#16, false) := by decide

/-- V-E1, from another CRC. -/
theorem test_init : field State.crc (first 0x01000000 { State.reset with crc := 0x29B1#16 }) = some 0xFFFF#16 := by decide

/-- V-D1, row 0. -/
theorem test_byte : field State.crc (first 0x02000031 State.reset) = some 0xC782#16 := by decide

/-- V-D2. -/
theorem test_byte_mixed : field State.crc (first 0x02000056 { State.reset with crc := 0x1234#16 }) = some 0x3C40#16 := by
  decide

/-- V-B1. -/
theorem test_bit_one : field State.crc (first 0x03000001 { State.reset with crc := 0x7FFF#16 }) = some 0xEFDF#16 := by decide

/-- V-B1. -/
theorem test_bit_zero : field State.crc (first 0x03000000 { State.reset with crc := 0x8000#16 }) = some 0x1021#16 := by decide

/-- V-E1. -/
theorem test_setofs : field (fun t => (t.offset, t.length)) (first 0x04FFFFFF (windowed 1#24 9#24)) =
    some (0xFFFFFF#24, 9#24) := by decide

/-- P2, line 5. -/
theorem test_setlen : field (fun t => (t.offset, t.length)) (first 0x05FFFFFF (windowed 1#24 9#24)) =
    some (1#24, 0xFFFFFF#24) := by decide

/-- V-W1, the clipped row: indices 1 to 10, in order. -/
theorem test_run : field (fun t => (t.crc, t.requests.reverse)) (first 0x06000000 (windowed 1#24 0xFFFFFF#24)) =
    some (0x1ABB#16, [1#24, 2#24, 3#24, 4#24, 5#24, 6#24, 7#24, 8#24, 9#24, 10#24]) := by decide

/-- P3, line 6. -/
theorem test_run_c : field State.crc (first 0x06000001 { windowed 5#24 5#24 with crc := 0x5349#16 }) = some 0x29B1#16 := by
  decide

/-- V-K1. -/
theorem test_clrerr : field State.err (first 0x07000000 { State.reset with err := true }) = some false := by decide

/-- V-E1. -/
theorem test_illegal : field (fun t => (t.crc, t.err)) (first 0x02000131 State.reset) = some (0xFFFF#16, true) := by decide

/-- V-R1: reset in the middle of a RUN. -/
theorem test_reset_edge : field (fun t => (t.crc, t.offset, t.length, t.busy, t.memReq)) (clockEdge resetting running) =
    some (0xFFFF#16, 0#24, 0#24, false, false) := by decide

/-- P5, line 4: a late `mem_ack` is ignored. -/
theorem test_late_ack : field State.crc (clockEdge (answering 0x33#8) State.reset) = some 0xFFFF#16 := by decide

/-- V-B2, the first shift of byte 31. -/
theorem test_shift : (State.shiftEdge { State.reset with busy := true, acc := 0xFFFF#16, shiftByte := 0x31#8 }).acc =
    0xEFDF#16 := by decide

/-- V-B3. -/
theorem test_table : crcTable 0x44#8 = 0x0840#16 ∧ updByteTable 0x1234#16 0x56#8 = 0x3C40#16 := by decide

/-- V-C1: a reduced working value, not the rejected wide one. -/
theorem test_mask : crcOf 0xFFFF#16 [0x31#8, 0x32#8] = 0x3DBA#16 := by decide

/-! ### Witnesses: the hypotheses of each statement are met -/

theorem witness_NopCommand : opcOf 0x00000001#32 = 0x00#8 ∧ immOf 0x00000001#32 ≠ 0#24 ∧
    (presenting 0x00000000#32).presents .nop ∧ State.reset.ready :=
  ⟨by decide, by decide, ⟨rfl, rfl, rfl⟩, by decide⟩

theorem witness_ClrerrCommand : State.reset.ready ∧ opcOf 0x07800000#32 = 0x07#8 ∧ immOf 0x07800000#32 ≠ 0#24 := by decide

theorem witness_InitCommand : opcOf 0x01800000#32 = 0x01#8 ∧ immOf 0x01800000#32 ≠ 0#24 ∧
    (presenting 0x01000000#32).presents .init ∧ State.reset.ready :=
  ⟨by decide, by decide, ⟨rfl, rfl, rfl⟩, by decide⟩

theorem witness_ByteCommand : State.reset.betweenSteps ∧ opcOf 0x02000100#32 = 0x02#8 ∧
    (0x02000100#32).extractLsb' 8 16 ≠ 0#16 ∧ (0x02800000#32).extractLsb' 8 16 ≠ 0#16 := by decide

theorem witness_BitCommand : State.reset.betweenSteps ∧ opcOf 0x03000002#32 = 0x03#8 ∧
    (0x03000002#32).extractLsb' 1 23 ≠ 0#23 ∧ (0x03800000#32).extractLsb' 1 23 ≠ 0#23 := by decide

theorem witness_SetofsCommand : opcOf 0x04FFFFFF#32 = 0x04#8 ∧
    (windowed 0#24 0#24).dataLen.val ≤ (11#24 : Addr).toNat := by decide

theorem witness_SetlenCommand : opcOf 0x05FFFFFF#32 = 0x05#8 ∧
    (windowed 11#24 0#24).offset.toNat ≤ (windowed 11#24 0#24).dataLen.val ∧
    (windowed 11#24 0#24).dataLen.val - (windowed 11#24 0#24).offset.toNat < (1#24 : Addr).toNat := by decide

theorem witness_RunCommand :
    (State.reset.betweenSteps ∧ State.reset.window.count = 0#25) ∧
    ((windowed 1#24 9#24).betweenSteps ∧ (windowed 1#24 9#24).hostAnswers = true ∧
      (windowed 1#24 9#24).window.count = 9#25) ∧
    (windowed 11#24 9#24).window.count = 0#25 ∧
    opcOf 0x06000002#32 = 0x06#8 ∧ (0x06000002#32).extractLsb' 1 23 ≠ 0#23 := by decide

theorem witness_RunReadsWindowOnce : State.reset.window.count = 0#25 ∧ (windowed 10#24 5#24).hostAnswers = true ∧
    (windowed 10#24 5#24).window.count = 1#25 := by decide

theorem witness_RunComputesSourceFunction : (windowed 1#24 9#24).ready ∧ (windowed 1#24 9#24).hostAnswers = true ∧ 10 + 1 < 2 ^ 24 ∧ 1 < 2 ^ 24 ∧
    10 + 1 ≤ (windowed 1#24 9#24).dataLen.val := by decide

theorem witness_WindowClipping :
    (windowed 11#24 5#24).dataLen.val ≤ (windowed 11#24 5#24).offset.toNat ∧ (windowed 3#24 0#24).length = 0#24 ∧
    ({ State.reset with dataLen := 0 } : State).dataLen.val = 0 ∧
    ((windowed 10#24 2#24).hostAnswers = true ∧ (windowed 10#24 2#24).offset.toNat < (windowed 10#24 2#24).dataLen.val ∧
      (windowed 10#24 2#24).dataLen.val < (windowed 10#24 2#24).offset.toNat + (windowed 10#24 2#24).length.toNat) := by
  decide

theorem witness_RunIsRepeatable : (∃ t, exec (.run 0#1) (windowed 1#24 9#24) = .next t) ∧
    (windowed 1#24 9#24).hostAnswers = true := ⟨⟨_, execRun_eq _ _⟩, rfl⟩

theorem witness_WideWorkingValue : (16 : Nat) ≤ 16 ∧ (16 : Nat) ≤ 64 := by decide

theorem witness_EveryCrcIsReachable : (∃ t, exec .init { State.reset with crc := 0#16 } = .next t ∧ t.crc ≠ 0#16) ∧
    State.reset.ready ∧ State.reset.crc = 0xFFFF#16 := ⟨⟨_, rfl, by decide⟩, by decide, rfl⟩

theorem witness_DecodeFollowsOpcodeMap : decode 0x06000001#32 = .legal (.run 1#1) ∧
    (⟨"RUN", .r1, 0x06000000#32, 0xFFFFFFFE#32⟩ : OpcodeRow) ∈ opcodeMap ∧
    (⟨"RUN", .r1, 0x06000000#32, 0xFFFFFFFE#32⟩ : OpcodeRow).selects 0x06000001#32 = true := by decide

theorem witness_IllegalWords : decode 0x08000000#32 = .illegal .undefinedOpcode ∧
    (presenting 0x08000000#32).rst = false ∧ (presenting 0x08000000#32).cmdValid = true ∧ State.reset.ready ∧
    decode (presenting 0x08000000#32).cmdWord = .illegal .undefinedOpcode := by decide

theorem witness_EncodeDecode : decode 0x04FFFFFF#32 = .legal (.setofs 0xFFFFFF#24) := by decide

theorem witness_PseudoInstructions : (∀ c ∈ ['~'], Char.toNat c < 128) ∧ State.reset.betweenSteps ∧
    State.reset.hostAnswers = true :=
  ⟨fun c hc => by rcases List.mem_singleton.mp hc with rfl; decide, by decide, rfl⟩

theorem witness_IllegalCommandSetsOnlyErr : State.reset.ready ∧ decode 0x07000001#32 = .illegal (.reservedBits .z) := by decide

theorem witness_IllegalCauses : State.reset.ready ∧ 0x08#8 ≤ opcOf 0x08000000#32 ∧ 0x08#8 ≤ opcOf 0xFFFFFFFF#32 ∧
    (opcOf 0x00000001#32 = 0x00#8 ∧ (0x00000001#32).extractLsb' 0 24 ≠ 0#24) ∧
    (opcOf 0x01800000#32 = 0x01#8 ∧ (0x01800000#32).extractLsb' 0 24 ≠ 0#24) ∧
    (opcOf 0x07000001#32 = 0x07#8 ∧ (0x07000001#32).extractLsb' 0 24 ≠ 0#24) ∧
    (opcOf 0x02000100#32 = 0x02#8 ∧ (0x02000100#32).extractLsb' 8 16 ≠ 0#16) ∧
    (opcOf 0x03000002#32 = 0x03#8 ∧ (0x03000002#32).extractLsb' 1 23 ≠ 0#23) ∧
    (opcOf 0x06000002#32 = 0x06#8 ∧ (0x06000002#32).extractLsb' 1 23 ≠ 0#23) := by decide

theorem witness_ErrBlocksNothing : Instr.init ≠ .clrerr ∧
    (∃ t, exec .init { State.reset with err := false } = .next t) ∧
    (∃ t, exec .clrerr { State.reset with err := true } = .next t ∧ t.err = false) :=
  ⟨by decide, ⟨_, rfl⟩, ⟨_, rfl, rfl⟩⟩

theorem witness_ErrWriters : State.reset.wasReset = true ∧
    (∃ t, step { State.reset with host := [.present 0x08000000#32] } = .next t ∧ t.err = true) ∧
    (∃ t, step { State.reset with err := true, host := [.present 0x07000000#32] } = .next t ∧ t.err = false) ∧
    (∃ t, step { State.reset with err := true, host := [.edge resetting] } = .next t ∧ t.err = false) :=
  ⟨rfl, ⟨_, rfl, rfl⟩, ⟨_, rfl, rfl⟩, ⟨_, rfl, rfl⟩⟩

theorem witness_ResetState : resetting.rst = true ∧ quiet.rst = false := by decide

theorem witness_ResetWinsOverEverything : resetting.rst = true ∧ (answering 0x33#8).rst = false ∧
    (answering 0x33#8).cmdValid = false := by decide

theorem witness_EveryWordIsAccepted : (presenting 0xFFFFFFFF#32).rst = false ∧
    (presenting 0xFFFFFFFF#32).cmdValid = true ∧ State.reset.ready := by decide

theorem witness_StepRunsDecodedCommand :
    (({ State.reset with host := [.present 0x01000000#32] } : State).host = .present 0x01000000#32 :: [] ∧
      ({ State.reset with host := [.present 0x01000000#32] } : State).ready ∧ decode 0x01000000#32 = .legal .init) ∧
    decode 0x08000000#32 = .illegal .undefinedOpcode ∧
    State.reset.betweenSteps ∧ decodeTableWord 32 0x06000000 = some (.run 0#1) ∧
    ((presenting 0x03000001#32).rst = false ∧ (presenting 0x03000001#32).cmdValid = true ∧
      decode (presenting 0x03000001#32).cmdWord = .legal (.bit 1#1) ∧ (∀ d, Instr.bit 1#1 ≠ .byte d) ∧
      (∀ c, Instr.bit 1#1 ≠ .run c)) :=
  ⟨by decide, by decide, by decide, by decide, rfl, rfl, by decide, nofun, nofun⟩

/-- The clauses of RUN and BYTE: an empty window, the last byte of the buffer, and both datapaths. -/
theorem witness_StepRunsDecodedCommand_started :
    decode (presenting 0x06000001#32).cmdWord = .legal (.run 1#1) ∧
    decode (presenting 0x02000031#32).cmdWord = .legal (.byte 0x31#8) ∧
    ((windowed 11#24 9#24).ready ∧ (windowed 11#24 9#24).window.count = 0#25) ∧
    ((windowed 10#24 9#24).ready ∧ (windowed 10#24 9#24).window.count ≠ 0#25) ∧
    State.reset.datapath = .byteParallel ∧ ({ State.reset with datapath := .bitSerial } : State).ready := by decide

/-- The accepting edge of the four commands that only it can lose. -/
theorem test_accept_edges :
    field State.crc (clockEdge (presenting 0x03000001#32) State.reset) = some 0xFFFE#16 ∧
    field State.offset (clockEdge (presenting 0x04FFFFFF#32) State.reset) = some 0xFFFFFF#24 ∧
    field State.length (clockEdge (presenting 0x05000009#32) State.reset) = some 9#24 ∧
    field State.err (clockEdge (presenting 0x07000000#32) { State.reset with err := true }) = some false := by decide

theorem witness_StepKeepsInvariant : (State.reset.Inv ∧ ∃ t, step State.reset = .next t) ∧
    (running.Inv ∧ ∃ t, step running = .next t) := ⟨⟨reset_inv, ⟨_, rfl⟩⟩, ⟨running_inv, ⟨_, rfl⟩⟩⟩

theorem witness_NoReadOutsideBuffer : runningLast.Inv ∧ runningLast.memReq = true ∧
    step { windowed 0#24 0#24 with host := [.write 11#24 0x00#8] } = .fault .hostWriteOutsideBuffer :=
  ⟨runningLast_inv, rfl, rfl⟩

theorem witness_WindowRegisterWriters : State.reset.wasReset = true ∧
    (∃ t, step { State.reset with host := [.present 0x04FFFFFF#32] } = .next t ∧ t.offset ≠ State.reset.offset) ∧
    (∃ t, step { State.reset with host := [.present 0x05000009#32] } = .next t ∧ t.length ≠ State.reset.length) :=
  ⟨rfl, ⟨_, rfl, by decide⟩, ⟨_, rfl, by decide⟩⟩

theorem witness_CrcWriters : State.reset.wasReset = true ∧
    ∃ t, step { State.reset with host := [.present 0x03000000#32] } = .next t ∧ t.crc ≠ State.reset.crc :=
  ⟨rfl, _, rfl, by decide⟩

theorem witness_OnlyTheHostWritesTheBuffer : Memory.wf buffer11 ∧
    ∃ t, step { windowed 0#24 0#24 with host := [.write 10#24 0x00#8] } = .next t ∧
      Memory.read t.data 10 ≠ Memory.read buffer11 10 := ⟨by decide, ⟨_, rfl, by decide⟩⟩

theorem witness_HostWriteIsSeen : Memory.wf buffer11 ∧ (10#24 : Addr).toNat < (windowed 0#24 0#24).dataLen.val := by decide

theorem witness_HiddenStateIsInvisible : State.reset.betweenSteps ∧
    State.reset.forgetHidden = State.forgetHidden { State.reset with idx := 5#25, bitCount := 7#3 } ∧
    ∃ t, execWord 0x02000031#32 State.reset = .next t := ⟨by decide, rfl, ⟨_, rfl⟩⟩

theorem witness_OutputsShowRegisters : (State.reset.wasReset = true ∧ State.reset.busy = false ∧
      State.reset.host.any HostAction.hasWord = false) ∧ (running.wasReset = true ∧ running.busy = true) ∧
    resetting.rst = true ∧ quiet.rst = false := by decide

theorem witness_BusyPortTakesNothing : running.wasReset = true ∧ running.busy = true := by decide

theorem witness_ReadPortHandshake :
    (running.wasReset = true ∧ running.busy = true ∧ running.memReq = true ∧ quiet.rst = false ∧ quiet.memAck = false) ∧
    State.reset.memReq = false ∧
    (running.Inv ∧ running.datapath = .byteParallel ∧ running.idx + 1#25 < running.endIdx ∧
      (answering 0x31#8).rst = false ∧ (answering 0x31#8).memAck = true) ∧
    (runningLast.Inv ∧ runningLast.memReq = true ∧ ¬ runningLast.idx + 1#25 < runningLast.endIdx) ∧
    ({ running with datapath := .bitSerial } : State).datapath = .bitSerial :=
  ⟨by decide, rfl, ⟨running_inv, by decide⟩, ⟨runningLast_inv, by decide⟩, rfl⟩

/-- The bit-serial clause of the read port: the same RUN on the other datapath is in the invariant. -/
theorem running_serial_inv : ({ running with datapath := .bitSerial } : State).Inv where
  reset_done := rfl
  data_wf := by decide
  data_bound := by decide
  requests_bound := fun a ha => by
    rcases List.mem_singleton.mp (show a ∈ [1#24] from ha) with rfl
    decide
  idle := by decide
  undisturbed := by decide
  req_running := by decide
  running := by decide
  shifting := by decide
  raced_window := by decide

theorem witness_UnansweredReadHangs :
    (running.wasReset = true ∧ running.busy = true ∧ running.memReq = true ∧ ∀ p ∈ [quiet, quiet], p.rst = false ∧ p.memAck = false) ∧
    ({ windowed 1#24 9#24 with hostAnswers := false } : State).window.count ≠ 0#25 ∧
    ({ windowed 1#24 9#24 with hostAnswers := false } : State).hostAnswers = false := by decide

theorem witness_ByteRefinesOnEitherDatapath : State.reset.betweenSteps ∧ (presenting 0x02000031#32).presents (.byte 0x31#8) ∧
    State.reset.datapath = .byteParallel ∧
    ({ State.reset with datapath := .bitSerial } : State).betweenSteps ∧
    (∀ q ∈ List.replicate 8 quiet, q.rst = false) ∧ (List.replicate 8 quiet).length = 8 :=
  ⟨by decide, ⟨rfl, rfl, by decide⟩, rfl, by decide, by decide, by decide⟩

theorem witness_RunRefinesArchitecturalStep : (windowed 10#24 1#24).betweenSteps ∧
    (presenting 0x06000000#32).presents (.run 0#1) ∧
    ∃ s₁ t, clockEdge (presenting 0x06000000#32) (windowed 10#24 1#24) = .next s₁ ∧
      honestEdges [answering 0xFF#8] s₁ ∧ clockUntilIdle [answering 0xFF#8] s₁ = .next t ∧ t.busy = false := by
  refine ⟨by decide, ⟨rfl, rfl, by decide⟩, _, _, rfl, ⟨⟨rfl, fun _ _ => ?_⟩, fun _ _ => trivial⟩, rfl, rfl⟩
  decide

theorem witness_AnsweredRunCompletes : (windowed 1#24 9#24).betweenSteps ∧ (windowed 1#24 9#24).hostAnswers = true ∧
    (presenting 0x06000000#32).presents (.run 0#1) ∧
    ∃ s₁, clockEdge (presenting 0x06000000#32) (windowed 1#24 9#24) = .next s₁ :=
  ⟨by decide, rfl, ⟨rfl, rfl, by decide⟩, ⟨_, rfl⟩⟩

/-- The same on the bit-serial datapath: an answer and eight shifts. -/
theorem witness_RunRefinesArchitecturalStep_serial :
    ({ windowed 10#24 1#24 with datapath := .bitSerial } : State).betweenSteps ∧
    ∃ s₁ t, clockEdge (presenting 0x06000000#32) { windowed 10#24 1#24 with datapath := .bitSerial } = .next s₁ ∧
      honestEdges (answering 0xFF#8 :: List.replicate 8 quiet) s₁ ∧
      clockUntilIdle (answering 0xFF#8 :: List.replicate 8 quiet) s₁ = .next t ∧ t.busy = false := by
  refine ⟨by decide, _, _, rfl, ⟨⟨rfl, fun _ _ => by decide⟩, fun t _ => ?_⟩, rfl, rfl⟩
  have quiet_honest : ∀ (n : Nat) (u : State), honestEdges (List.replicate n quiet) u := fun n => by
    induction n with
    | zero => exact fun _ => trivial
    | succ n ih => exact fun u => ⟨⟨rfl, fun h => by cases h⟩, fun v _ => ih v⟩
  exact quiet_honest 8 t

theorem witness_AnsweredRunCompletes_serial :
    ({ windowed 1#24 9#24 with datapath := .bitSerial } : State).betweenSteps ∧
    ({ windowed 1#24 9#24 with datapath := .bitSerial } : State).hostAnswers = true ∧
    ∃ s₁, clockEdge (presenting 0x06000000#32) { windowed 1#24 9#24 with datapath := .bitSerial } = .next s₁ :=
  ⟨by decide, rfl, ⟨_, rfl⟩⟩

/-- Word and buffer action lists that the observation's clauses speak of. -/
theorem witness_ObservationOfSequence :
    ([0x01000000#32] ≠ [] ∧ (windowed 1#24 9#24).betweenSteps ∧ (windowed 1#24 9#24).hostAnswers = true ∧
      ∃ t, execWords [0x01000000#32] (windowed 1#24 9#24) = .next t) ∧
    (running.busy = true ∧ [HostAction.present 0#32].any HostAction.hasWord = true) ∧
    (({ State.reset with host := [.present 0#32, .present 0#32, .edge resetting, .present 0#32] } : State).takesWord 0#32 ∧
      resetting.rst = true ∧ [HostAction.present 0#32].any HostAction.hasWord = true) ∧
    ({ windowed 1#24 9#24 with hostAnswers := false } : State).betweenSteps ∧
    ({ windowed 1#24 9#24 with hostAnswers := false } : State).window.count ≠ 0#25 :=
  ⟨⟨by decide, by decide, rfl, ⟨_, rfl⟩⟩, by decide, ⟨rfl, by decide⟩, by decide, by decide⟩

/-- P2, lines 1 to 3, as a sequence: what R132 observes. -/
theorem test_observe :
    observe 3 { windowed 0#24 0#24 with host := [.present 0x04000001#32, .present 0x05000009#32, .present 0x06000000#32] } =
      some ⟨0x29B1#16, false, [1#24, 2#24, 3#24, 4#24, 5#24, 6#24, 7#24, 8#24, 9#24]⟩ := by decide

theorem witness_CommandsCompleteInOrder :
    (State.reset.wasReset = true ∧ commandAccepted (presenting 0x01000000#32) State.reset = true) ∧
    (running.wasReset = true ∧ running.busy = true) ∧ (∃ t, execWords [0x01000000#32] State.reset = .next t) ∧
    State.reset.ready := ⟨by decide, by decide, ⟨_, rfl⟩, by decide⟩

theorem witness_NothingIsSpecifiedBeforeReset : State.powerUp.wasReset = false ∧ quiet.rst = false := ⟨rfl, rfl⟩

theorem witness_BootReachesInvariant : resetting.rst = true ∧ Memory.wf running.data ∧
    (∀ x ∈ running.data, x.1 < running.dataLen.val) ∧ (∀ a ∈ running.requests, a.toNat < running.dataLen.val) :=
  ⟨rfl, running_inv.data_wf, running_inv.data_bound, running_inv.requests_bound⟩

theorem witness_ChangedByteReadsFree : running.busy = true ∧ running.phase = .running ∧
    running.offset.toNat ≤ (9#24 : Addr).toNat ∧ (9#24 : Addr).toNat < running.endIdx.toNat ∧
    (∃ t, hostWrite 9#24 0x00#8 running = .next t) ∧ (2 : Nat) ≠ (9#24 : Addr).toNat :=
  ⟨by decide, by decide, by decide, by decide, ⟨_, rfl⟩, by decide⟩

theorem witness_WriteOutsideWindowDoesNotAffectRun : running.Inv ∧ running.phase = .running ∧
    ((0#24 : Addr).toNat < running.offset.toNat ∧ ∃ t, hostWrite 0#24 0x55#8 running = .next t) ∧
    (running.endIdx.toNat ≤ (10#24 : Addr).toNat ∧ ∃ t, hostWrite 10#24 0x55#8 running = .next t) ∧
    ∃ t, quietEdges 1 running = .next t :=
  ⟨running_inv, by decide, ⟨by decide, ⟨_, rfl⟩⟩, ⟨by decide, ⟨_, rfl⟩⟩, ⟨_, rfl⟩⟩

/-- A window of one byte, and an edge that presents RUN. -/
def runPresented : State := { windowed 10#24 1#24 with host := [.edge (presenting 0x06000000#32)] }

/-- The bit-serial datapath, and an edge that presents BYTE. -/
def bytePresented : State := { State.reset with datapath := .bitSerial, host := [.edge (presenting 0x02000031#32)] }

/-- The last bit of a BYTE. -/
def lastBit : State := { State.reset with datapath := .bitSerial, busy := true, bitCount := 7#3 }

theorem runPresented_inv : runPresented.Inv where
  reset_done := rfl
  data_wf := by decide
  data_bound := by decide
  requests_bound := fun _ ha => by cases ha
  idle := by decide
  undisturbed := by decide
  req_running := by decide
  running := by decide
  shifting := by decide
  raced_window := by decide

theorem bytePresented_inv : bytePresented.Inv := by constructor <;> simp [bytePresented, State.reset, Memory.wf]

theorem lastBit_inv : lastBit.Inv := by constructor <;> simp [lastBit, State.reset, Memory.wf]

/-- Each way BUSY rises and falls. -/
theorem witness_BusyWriters :
    (runPresented.Inv ∧ runPresented.busy = false ∧ ∃ t, step runPresented = .next t ∧ t.busy = true) ∧
    (bytePresented.Inv ∧ bytePresented.busy = false ∧ ∃ t, step bytePresented = .next t ∧ t.busy = true) ∧
    (runningLast.Inv ∧ runningLast.busy = true ∧ ∃ t, step runningLast = .next t ∧ t.busy = false) ∧
    (lastBit.Inv ∧ lastBit.busy = true ∧ ∃ t, step lastBit = .next t ∧ t.busy = false) ∧
    (running.Inv ∧ running.busy = true ∧ ∃ t, clockEdge resetting running = .next t ∧ t.busy = false) :=
  ⟨⟨runPresented_inv, rfl, ⟨_, rfl, rfl⟩⟩, ⟨bytePresented_inv, rfl, ⟨_, rfl, rfl⟩⟩,
    ⟨runningLast_inv, rfl, ⟨_, rfl, rfl⟩⟩, ⟨lastBit_inv, rfl, ⟨_, rfl, rfl⟩⟩, ⟨running_inv, rfl, ⟨_, rfl, rfl⟩⟩⟩

end Sys2Proof.Tests
end

section
/-! PROOF. The other forms of UpdByte (R76, R78) are UpdByte, and two bytes lead from any CRC to any other (R40). -/

namespace Sys2Proof.Machine

theorem updByteGates_eq_updByte (c : Crc) (d : Byte) : updByteGates c d = updByte c d := by
  apply BitVec.eq_of_getLsbD_eq
  intro i hi
  rw [updByte_getLsbD c d i hi, updByteGates, BitVec.getLsbD_setWidth, BitVec.getLsbD_ofBoolListLE]
  simp [hi]

/-- Bit by bit, the feedbacks of the eight shifts are the XORs of the gate equations. -/
theorem updByteSerial_eq_updByte (c : Crc) (d : Byte) : updByteSerial c d = updByte c d := by
  apply BitVec.eq_of_getLsbD_eq
  intro i hi
  rw [updByte_getLsbD c d i hi, updByteSerial]
  interval_cases i <;>
  simp +decide only [gateBits, updBit_getLsbD, BitVec.getLsbD_extractLsb', BitVec.getLsbD_xor, BitVec.reduceGetLsb,
    List.getD_cons_succ, List.getD_cons_zero, Nat.reduceSub, Nat.reduceAdd, decide_true, decide_false,
    Bool.true_and, Bool.false_and, Bool.and_true, Bool.and_false, Bool.xor_false, Bool.false_xor] <;>
  simp only [Bool.xor_assoc, Bool.xor_comm, Bool.xor_left_comm]

theorem updByteTable_eq_updByte (c : Crc) (d : Byte) : updByteTable c d = updByte c d := by
  apply BitVec.eq_of_getLsbD_eq
  intro i hi
  rw [updByteTable, crcTable, BitVec.getLsbD_xor, updByte_getLsbD _ _ i hi, updByte_getLsbD _ _ i hi]
  interval_cases i <;>
  simp +decide only [gateBits, BitVec.getLsbD_extractLsb', BitVec.getLsbD_xor, BitVec.getLsbD_shiftLeft,
    BitVec.getLsbD_zero, List.getD_cons_succ, List.getD_cons_zero, Nat.reduceSub, Nat.reduceAdd,
    decide_true, decide_false, Bool.not_true, Bool.not_false, Bool.true_and, Bool.false_and, Bool.xor_false,
    Bool.false_xor] <;>
  simp only [Bool.xor_assoc, Bool.xor_comm, Bool.xor_left_comm]

/-- The byte whose table entry has the low byte `y`: the two folds of R73 undone. -/
def lowByteInverse (y : Byte) : Byte :=
  let u := y ^^^ (y <<< 5)
  u ^^^ (u >>> 4)

theorem crcTable_lowByteInverse (y : Byte) : (crcTable (lowByteInverse y)).extractLsb' 0 8 = y := by
  revert y
  decide

/-- The byte that, after CRC = `c`, meets the table at `x`. -/
theorem updByte_eq_crcTable (c : Crc) (x : Byte) :
    updByte c (c.extractLsb' 8 8 ^^^ x) = crcTable x ^^^ (c <<< 8) := by
  rw [← updByteTable_eq_updByte, updByteTable, ← BitVec.xor_assoc, BitVec.xor_self, BitVec.zero_xor]

theorem xor_shiftLeft_low (t c : Crc) : (t ^^^ (c <<< 8)).extractLsb' 0 8 = t.extractLsb' 0 8 := by
  apply BitVec.eq_of_getLsbD_eq
  intro i hi
  simp [hi]

theorem xor_shiftLeft_high (t c : Crc) :
    (t ^^^ (c <<< 8)).extractLsb' 8 8 = t.extractLsb' 8 8 ^^^ c.extractLsb' 0 8 := by
  apply BitVec.eq_of_getLsbD_eq
  intro i hi
  simp [hi]
  omega

theorem crc_eq_of_bytes_eq (a b : Crc) (low : a.extractLsb' 0 8 = b.extractLsb' 0 8)
    (high : a.extractLsb' 8 8 = b.extractLsb' 8 8) : a = b := by
  have halves : ∀ c : Crc, c.extractLsb' 8 8 ++ c.extractLsb' 0 8 = c := fun c => by
    rw [BitVec.extractLsb'_append_extractLsb'_eq_extractLsb' (by omega)]
    simp
  rw [← halves a, ← halves b, low, high]

/-- The last byte fixes the low byte of the result, the byte before it the high byte. -/
theorem exists_updByte_updByte_eq (c v : Crc) : ∃ d₁ d₂, updByte (updByte c d₁) d₂ = v := by
  let x₂ := lowByteInverse (v.extractLsb' 0 8)
  let x₁ := lowByteInverse (v.extractLsb' 8 8 ^^^ (crcTable x₂).extractLsb' 8 8)
  refine ⟨c.extractLsb' 8 8 ^^^ x₁, (crcTable x₁ ^^^ (c <<< 8)).extractLsb' 8 8 ^^^ x₂, ?_⟩
  rw [updByte_eq_crcTable, updByte_eq_crcTable]
  have low : (crcTable x₂ ^^^ ((crcTable x₁ ^^^ (c <<< 8)) <<< 8)).extractLsb' 0 8 = v.extractLsb' 0 8 := by
    rw [xor_shiftLeft_low, crcTable_lowByteInverse]
  have high : (crcTable x₂ ^^^ ((crcTable x₁ ^^^ (c <<< 8)) <<< 8)).extractLsb' 8 8 = v.extractLsb' 8 8 := by
    rw [xor_shiftLeft_high, xor_shiftLeft_low, crcTable_lowByteInverse, BitVec.xor_comm, BitVec.xor_assoc,
      BitVec.xor_self, BitVec.xor_zero]
  exact crc_eq_of_bytes_eq _ _ low high

end Sys2Proof.Machine
end

section
/-! PROOF. Decoding and encoding undo each other (R60 to R64). -/

namespace Sys2Proof

/-- A 24-bit field whose bits from `k` on are 0 is its low `k` bits. -/
theorem setWidth_low_of_high_zero {k : Nat} (v : BitVec 24) (h : v.extractLsb' k (24 - k) = 0#(24 - k)) :
    (v.extractLsb' 0 k).setWidth 32 = v.setWidth 32 := by
  apply BitVec.eq_of_getLsbD_eq
  intro i hi
  simp only [BitVec.getLsbD_setWidth, BitVec.getLsbD_extractLsb', Nat.zero_add]
  by_cases hk : i < k
  · simp [hk]
  · have hz := congrArg (·.getLsbD (i - k)) h
    simp only [BitVec.getLsbD_extractLsb', BitVec.getLsbD_zero, show k + (i - k) = i by omega] at hz
    by_cases h24 : i < 24
    · simp_all [show i - k < 24 - k by omega]
    · simp [hk, BitVec.getLsbD_of_ge v i (by omega)]

/-- An operand is the low bits of IMM (R61). -/
theorem extractLsb'_immOf (w : Word) (k : Nat) (hk : k ≤ 24) :
    w.extractLsb' 0 k = (immOf w).extractLsb' 0 k := by
  apply BitVec.eq_of_getLsbD_eq
  intro i hi
  simp [immOf, hi, show i < 24 by omega]

/-- A legal word is the word of its command: OPC is its opcode, and IMM its operand and no other bit. -/
theorem encode_of_decode {w : Word} {i : Instr} (h : decode w = .legal i) : encode i = w := by
  have low (k : Nat) (hk : k ≤ 24) (hz : (immOf w).extractLsb' k (24 - k) = 0#(24 - k)) :
      (w.extractLsb' 0 k).setWidth 32 = (immOf w).setWidth 32 := by
    rw [extractLsb'_immOf w k hk, setWidth_low_of_high_zero _ hz]
  rw [word_eq_opc_imm w]
  rcases decode_cases w i h with ⟨ho, hm, rfl⟩ | ⟨ho, hm, rfl⟩ | ⟨ho, hm, rfl⟩ | ⟨ho, hm, rfl⟩ | ⟨ho, rfl⟩ |
    ⟨ho, rfl⟩ | ⟨ho, hm, rfl⟩ | ⟨ho, hm, rfl⟩
  · rw [ho, hm]; rfl
  · rw [ho, hm]; rfl
  · rw [ho, ← low 8 (by omega) hm]; rfl
  · rw [ho, ← low 1 (by omega) hm]; rfl
  · rw [ho]; rfl
  · rw [ho]; rfl
  · rw [ho, ← low 1 (by omega) hm]; rfl
  · rw [ho, hm]; rfl

/-- OPC of a word put together from an opcode and an operand. -/
theorem opcOf_or (o : BitVec 8) (v : BitVec 24) : opcOf (o.setWidth 32 <<< 24 ||| v.setWidth 32) = o := by
  apply BitVec.eq_of_getLsbD_eq
  intro i hi
  simp [opcOf, hi, show 24 + i < 32 by omega]

theorem immOf_or (o : BitVec 8) (v : BitVec 24) : immOf (o.setWidth 32 <<< 24 ||| v.setWidth 32) = v := by
  apply BitVec.eq_of_getLsbD_eq
  intro i hi
  simp [immOf, hi]
  omega

/-- Every command's word decodes to it. -/
theorem decode_encode (i : Instr) : decode (encode i) = .legal i := by
  cases i with
  | nop => decide
  | init => decide
  | byte d =>
    have hw : encode (.byte d) = (0x02#8).setWidth 32 <<< 24 ||| (d.setWidth 24).setWidth 32 := by
      rw [BitVec.setWidth_setWidth (by omega)]
      rfl
    have ho := opcOf_or 0x02#8 (d.setWidth 24)
    have hi := immOf_or 0x02#8 (d.setWidth 24)
    rw [← hw] at ho hi
    have hz : (immOf (encode (.byte d))).extractLsb' 8 16 = 0#16 := by
      rw [hi]
      apply BitVec.eq_of_getLsbD_eq
      intro j hj
      rw [BitVec.getLsbD_extractLsb', BitVec.getLsbD_setWidth, BitVec.getLsbD_of_ge d _ (by omega)]
      simp
    have hd : operandD (encode (.byte d)) = d := by
      rw [operandD, extractLsb'_immOf _ _ (by omega), hi, BitVec.extractLsb'_setWidth_of_le (by omega),
        BitVec.extractLsb'_eq_self]
    simp [decode, ho, reservedZeroB8, hz, hd]
  | bit x => revert x; decide
  | setofs v =>
    have ho : opcOf (encode (.setofs v)) = 0x04#8 := opcOf_or 0x04#8 v
    have hv : operandV (encode (.setofs v)) = v := immOf_or 0x04#8 v
    simp [decode, ho, hv]
  | setlen v =>
    have ho : opcOf (encode (.setlen v)) = 0x05#8 := opcOf_or 0x05#8 v
    have hv : operandV (encode (.setlen v)) = v := immOf_or 0x05#8 v
    simp [decode, ho, hv]
  | run c => revert c; decide
  | clrerr => decide
end Sys2Proof
end

section
/-! PROOF. What a command, an edge with a command in progress, and a step can do, each said once as a list of cases. -/

namespace Sys2Proof.Machine

/-! ### A command, as a step or at its accepting edge -/

/-- What RUN leaves once every byte of its window is read (R89, R90). -/
def State.answeredRun (c : BitVec 1) (s : State) : State :=
  { s.completeRun (crcOf (s.runSeed c) (s.windowBytes s.window.start.toNat s.window.count.toNat)) with
    requests := ((List.range' s.window.start.toNat s.window.count.toNat).map (BitVec.ofNat 24)).reverse
      ++ s.requests }

/-- What a command can leave, whether a step executes it or an edge accepts it. -/
inductive State.CommandEffect (s : State) : Instr → State → Prop
  | nop : CommandEffect s .nop s
  | init : CommandEffect s .init { s with crc := Config.init }
  | byteDone (d : Byte) : CommandEffect s (.byte d) (s.completeByte (updByte s.crc d))
  | byteStarted (d : Byte) (hd : s.datapath = .bitSerial) : CommandEffect s (.byte d) (s.startByte d)
  | bit (x : BitVec 1) : CommandEffect s (.bit x) { s with crc := updBit s.crc x }
  | setofs (v : Addr) : CommandEffect s (.setofs v) { s with offset := v }
  | setlen (v : Addr) : CommandEffect s (.setlen v) { s with length := v }
  | runDone (c : BitVec 1) : CommandEffect s (.run c) (s.answeredRun c)
  | runStarted (c : BitVec 1) (hw : s.window.count ≠ 0#25) : CommandEffect s (.run c) (s.startRun c)
  | clrerr : CommandEffect s .clrerr s.clearErr

/-- A RUN that the host answers, or of an empty window, completes in its step. -/
theorem exec_run_answered (c : BitVec 1) (s : State) (h : s.window.count = 0#25 ∨ s.hostAnswers = true) :
    exec (.run c) s = .next (s.answeredRun c) := (execRun_eq c s).trans (if_pos h)

/-- Any other RUN stays in progress. -/
theorem exec_run_unanswered (c : BitVec 1) (s : State) (h : ¬ (s.window.count = 0#25 ∨ s.hostAnswers = true)) :
    exec (.run c) s = .next (s.startRun c) :=
  (execRun_eq c s).trans (if_neg h)

theorem exec_effect {i : Instr} {s t : State} (h : exec i s = .next t) : s.CommandEffect i t := by
  cases i with
  | nop => cases h; exact .nop
  | init => cases h; exact .init
  | byte d => cases h; exact .byteDone d
  | bit x => cases h; exact .bit x
  | setofs v => cases h; exact .setofs v
  | setlen v => cases h; exact .setlen v
  | run c =>
    by_cases hc : s.window.count = 0#25 ∨ s.hostAnswers = true
    · rw [exec_run_answered c s hc] at h
      cases h; exact .runDone c
    · rw [exec_run_unanswered c s hc] at h
      cases h; exact .runStarted c fun hw => hc (.inl hw)
  | clrerr => cases h; exact .clrerr

/-- The accepting edge completes every command but BYTE and RUN (R128). -/
theorem acceptInstr_eq_exec {i : Instr} (s : State) (hb : ∀ d, i ≠ .byte d) (hr : ∀ c, i ≠ .run c) :
    acceptInstr i s = exec i s := by
  cases i with
  | byte d => exact absurd rfl (hb d)
  | run c => exact absurd rfl (hr c)
  | _ => rfl

theorem acceptByte_byteParallel (d : Byte) (s : State) (h : s.datapath = .byteParallel) :
    acceptByte d s = exec (.byte d) s := by
  unfold acceptByte
  split
  · rw [updByteGates_eq_updByte]; rfl
  · next h' => rw [h] at h'; cases h'

theorem acceptByte_bitSerial (d : Byte) (s : State) (h : s.datapath = .bitSerial) :
    acceptByte d s = .next (s.startByte d) := by
  unfold acceptByte
  split
  · next h' => rw [h] at h'; cases h'
  · rfl

theorem acceptRun_empty (c : BitVec 1) (s : State) (h : s.window.count = 0#25) :
    acceptRun c s = exec (.run c) s := by rw [acceptRun, if_pos h]

theorem acceptRun_nonempty (c : BitVec 1) (s : State) (h : s.window.count ≠ 0#25) :
    acceptRun c s = .next (s.startRun c) := by rw [acceptRun, if_neg h]

theorem acceptInstr_effect {i : Instr} {s t : State} (h : acceptInstr i s = .next t) : s.CommandEffect i t := by
  cases i with
  | byte d =>
    change acceptByte d s = .next t at h
    cases hd : s.datapath with
    | byteParallel =>
      rw [acceptByte_byteParallel d s hd] at h
      exact exec_effect h
    | bitSerial =>
      rw [acceptByte_bitSerial d s hd] at h
      cases h
      exact .byteStarted d hd
  | run c =>
    change acceptRun c s = .next t at h
    by_cases hw : s.window.count = 0#25
    · rw [acceptRun_empty c s hw] at h
      exact exec_effect h
    · rw [acceptRun_nonempty c s hw] at h
      cases h
      exact .runStarted c hw
  | _ => exact exec_effect h

theorem acceptWord_legal {w : Word} {i : Instr} (s : State) (h : decode w = .legal i) :
    acceptWord w s = acceptInstr i s := by simp only [acceptWord, h]

theorem acceptWord_illegal {w : Word} {c : IllegalCause} (s : State) (h : decode w = .illegal c) :
    acceptWord w s = .next s.setErr := by simp only [acceptWord, h]; rfl

/-! ### An edge with a command in progress -/

/-- What an edge with a command in progress can leave (R35, R84, R89). `next` and `runDone` end a byte of a RUN. -/
inductive State.BusyEffect (s : State) : State → Prop
  | waiting (hq : s.memReq = true) : BusyEffect s s
  | byteTaken (d : Byte) (hq : s.memReq = true) (hd : s.datapath = .bitSerial) :
      BusyEffect s { s with shiftByte := d, bitCount := 0#3, memReq := false }
  | shifted (hq : s.memReq = false) (hc : s.bitCount ≠ 7#3) : BusyEffect s { s with
      acc := updBit s.acc (s.shiftByte.extractLsb' 7 1), shiftByte := s.shiftByte <<< 1, bitCount := s.bitCount + 1#3 }
  | byteDone (r : Crc) (hq : s.memReq = false) (hp : s.phase = .idle) (hc : s.bitCount = 7#3) :
      BusyEffect s (s.completeByte r)
  | next (r : Crc) (hp : s.memReq = true ∨ s.phase = .running) (hi : s.idx + 1#25 < s.endIdx) :
      BusyEffect s (State.request (s.idx + 1#25) { s with acc := r })
  | runDone (r : Crc) (hp : s.memReq = true ∨ s.phase = .running) (hi : ¬ s.idx + 1#25 < s.endIdx) :
      BusyEffect s (s.completeRun r)

theorem advance_next (r : Crc) (s : State) (h : s.idx + 1#25 < s.endIdx) :
    s.advance r = State.request (s.idx + 1#25) { s with acc := r } := by rw [advance_eq, if_pos h]

theorem advance_runDone (r : Crc) (s : State) (h : ¬ s.idx + 1#25 < s.endIdx) : s.advance r = s.completeRun r := by
  rw [advance_eq, if_neg h]

theorem advance_effect (r : Crc) (s : State) (hp : s.memReq = true ∨ s.phase = .running) :
    s.BusyEffect (s.advance r) := by
  by_cases hi : s.idx + 1#25 < s.endIdx
  · rw [advance_next r s hi]
    exact .next r hp hi
  · rw [advance_runDone r s hi]
    exact .runDone r hp hi

theorem byteShifted_idle (r : Crc) (s : State) (h : s.phase = .idle) : s.byteShifted r = s.completeByte r := by
  unfold State.byteShifted
  split
  · rfl
  · next h' => rw [h] at h'; cases h'

theorem byteShifted_running (r : Crc) (s : State) (h : s.phase = .running) : s.byteShifted r = s.advance r := by
  unfold State.byteShifted
  split
  · next h' => rw [h] at h'; cases h'
  · rfl

theorem shiftEdge_last (s : State) (h : s.bitCount = 7#3) :
    s.shiftEdge = s.byteShifted (updBit s.acc (s.shiftByte.extractLsb' 7 1)) := by
  simp only [State.shiftEdge, h, if_true]

theorem shiftEdge_inner (s : State) (h : s.bitCount ≠ 7#3) :
    s.shiftEdge = { s with
      acc := updBit s.acc (s.shiftByte.extractLsb' 7 1)
      shiftByte := s.shiftByte <<< 1
      bitCount := s.bitCount + 1#3 } := by
  simp only [State.shiftEdge, h, if_false]

theorem busyEdge_waiting (p : Pins) (s : State) (hq : s.memReq = true) (ha : p.memAck = false) :
    s.busyEdge p = s := by simp [State.busyEdge, hq, ha]

theorem busyEdge_answered (p : Pins) (s : State) (hq : s.memReq = true) (ha : p.memAck = true) :
    s.busyEdge p = s.takeByte p.memRdata := by simp [State.busyEdge, hq, ha]

theorem busyEdge_shifting (p : Pins) (s : State) (hq : s.memReq = false) :
    s.busyEdge p = s.shiftEdge := by simp [State.busyEdge, hq]

theorem busyEdge_effect (p : Pins) (s : State) : s.BusyEffect (s.busyEdge p) := by
  cases hq : s.memReq with
  | true =>
    cases ha : p.memAck with
    | false =>
      rw [busyEdge_waiting p s hq ha]
      exact .waiting hq
    | true =>
      rw [busyEdge_answered p s hq ha]
      cases hd : s.datapath with
      | byteParallel =>
        rw [takeByte_byteParallel _ s hd]
        exact advance_effect _ s (.inl hq)
      | bitSerial =>
        rw [takeByte_bitSerial _ s hd]
        exact .byteTaken _ hq hd
  | false =>
    rw [busyEdge_shifting p s hq]
    by_cases hc : s.bitCount = 7#3
    · rw [shiftEdge_last s hc]
      cases hp : s.phase with
      | idle =>
        rw [byteShifted_idle _ s hp]
        exact .byteDone _ hq hp hc
      | running =>
        rw [byteShifted_running _ s hp]
        exact advance_effect _ s (.inr hp)
    · rw [shiftEdge_inner s hc]
      exact .shifted hq hc

/-! ### A step -/

/-- What a step can do after reset, by what it takes from the host. -/
inductive State.StepEffect (s : State) : State → Prop
  | reset (rest : List HostAction) (h : s.takesReset) : StepEffect s (State.resetEdge { s with host := rest })
  | busy (p : Pins) (rest : List HostAction) (n : Nat) (hb : s.busy = true) :
      StepEffect s (State.busyEdge p { s with host := rest, draws := n })
  | command (i : Instr) (rest : List HostAction) (n : Nat) (t : State) (hb : s.busy = false)
      (hw : s.takesWord (encode i)) (h : State.CommandEffect { s with host := rest, draws := n } i t) : StepEffect s t
  | illegal (w : Word) (c : IllegalCause) (rest : List HostAction) (n : Nat) (hb : s.busy = false)
      (hw : s.takesWord w) (hc : decode w = .illegal c) : StepEffect s { s with host := rest, draws := n, err := true }
  | idle (rest : List HostAction) (n : Nat) (hb : s.busy = false) : StepEffect s { s with host := rest, draws := n }
  | write (a : Addr) (b : Byte) (rest : List HostAction) (t : State)
      (h : hostWrite a b { s with host := rest } = .next t) : StepEffect s t

/-- An edge of a step, given what its inputs mean for the host's next action. -/
theorem clockEdge_effect {p : Pins} {s t : State} (rest : List HostAction) (hr : s.wasReset = true)
    (hreset : p.rst = true → s.takesReset)
    (hword : s.ready → p.rst = false → p.cmdValid = true → s.takesWord p.cmdWord)
    (h : clockEdge p { s with host := rest } = .next t) : s.StepEffect t := by
  cases hrst : p.rst with
  | true =>
    rw [clockEdge_reset p _ hrst] at h
    cases h
    exact .reset rest (hreset hrst)
  | false =>
    cases hb : s.busy with
    | true =>
      rw [clockEdge_busy p { s with host := rest } hrst hr hb] at h
      cases h
      exact .busy p rest _ hb
    | false =>
      have hready : State.ready { s with host := rest } := ⟨hr, hb⟩
      cases hv : p.cmdValid with
      | false =>
        rw [clockEdge_idle p _ hrst hv hready] at h
        cases h
        exact .idle rest _ hb
      | true =>
        have hw := hword ⟨hr, hb⟩ hrst hv
        rw [clockEdge_accept p _ hrst hv hready] at h
        cases hd : decode p.cmdWord with
        | legal i =>
          rw [acceptWord_legal _ hd] at h
          rw [← encode_of_decode hd] at hw
          exact .command i rest _ t hb hw (acceptInstr_effect h)
        | illegal c =>
          rw [acceptWord_illegal _ hd] at h
          cases h
          exact .illegal _ c rest _ hb hw hd

/-- A presented word, taken by a ready block. -/
theorem execWord_effect {w : Word} {s t : State} (rest : List HostAction) (hr : s.ready) (hw : s.takesWord w)
    (h : execWord w { s with host := rest } = .next t) : s.StepEffect t := by
  have hready : State.ready { s with host := rest } := hr
  cases hd : decode w with
  | legal i =>
    rw [execWord_legal w i _ hready hd] at h
    rw [← encode_of_decode hd] at hw
    exact .command i rest _ t hr.2 hw (exec_effect h)
  | illegal c =>
    rw [execWord_illegal w c _ hready hd] at h
    cases h
    exact .illegal w c rest _ hr.2 hw hd

theorem step_effect {s t : State} (hr : s.wasReset = true) (h : step s = .next t) : s.StepEffect t := by
  cases hh : s.host with
  | nil =>
    rw [step_quiet s hh] at h
    exact clockEdge_effect s.host hr (absurd · Bool.false_ne_true) (fun _ _ hv => absurd hv Bool.false_ne_true) h
  | cons a rest =>
    cases a with
    | edge p =>
      rw [step_edge s p rest hh] at h
      refine clockEdge_effect rest hr (fun hrst => ?_) (fun hready hrst hv => ?_) h
      · rw [State.takesReset, resetTaken_edge s p rest hh, hrst]
      · exact wordTaken_edge s p rest hh hr (by rw [commandAccepted_ready p s hrst hready, hv])
    | write a b =>
      rw [step_write s a b rest hh] at h
      exact .write a b rest t h
    | present w =>
      cases hb : s.busy with
      | false =>
        rw [step_present_ready s w rest hh ⟨hr, hb⟩] at h
        exact execWord_effect rest ⟨hr, hb⟩ (wordTaken_present s w rest hh ⟨hr, hb⟩) h
      | true =>
        rw [step_present_busy s w rest hh hr hb] at h
        exact clockEdge_effect s.host hr (absurd · Bool.false_ne_true)
          (fun hready _ _ => absurd hb (by simp [hready.2])) h

end Sys2Proof.Machine
end

section
/-! PROOF. The invariant holds at reset, and every case of a step keeps it. -/

namespace Sys2Proof.Machine

/-- Settles O42, clause by clause: nothing is in progress, requested, listed or disturbed. -/
theorem resetMeetsInvariant : Obligations.ResetMeetsInvariant where
  reset_done := rfl
  data_wf := reset_data_wf
  data_bound := nofun
  requests_bound := nofun
  idle := fun _ => ⟨rfl, rfl⟩
  undisturbed := fun _ => rfl
  req_running := nofun
  running := nofun
  shifting := nofun
  raced_window := nofun

/-- Between two steps only the buffer and the record of requests have something to keep. -/
theorem State.Inv.of_betweenSteps {s : State} (hs : s.betweenSteps) (hwf : Memory.wf s.data)
    (hdata : ∀ x ∈ s.data, x.1 < s.dataLen.val) (hreqs : ∀ a ∈ s.requests, a.toNat < s.dataLen.val) :
    s.Inv := by
  obtain ⟨⟨hr, hb⟩, hp, hq, hraced⟩ := hs
  exact {
    reset_done := hr
    data_wf := hwf
    data_bound := hdata
    requests_bound := hreqs
    idle := fun _ => ⟨hp, hq⟩
    undisturbed := fun _ => hraced
    req_running := by simp [hq]
    running := by simp [hp]
    shifting := by simp [hb]
    raced_window := by simp [hraced] }

/-- With BUSY = 0 a state of the invariant is between two steps (R36). -/
theorem State.Inv.betweenSteps {s : State} (h : s.Inv) (hb : s.busy = false) : s.betweenSteps := by
  obtain ⟨hp, hq⟩ := h.idle hb
  exact ⟨⟨h.reset_done, hb⟩, hp, hq, h.undisturbed hp⟩

/-- The invariant speaks neither of what the host has pending nor of the draws. -/
theorem State.Inv.withHost {s : State} (h : s.Inv) (rest : List HostAction) (n : Nat) :
    State.Inv { s with host := rest, draws := n } where
  reset_done := h.reset_done
  data_wf := h.data_wf
  data_bound := h.data_bound
  requests_bound := h.requests_bound
  idle := h.idle
  undisturbed := h.undisturbed
  req_running := h.req_running
  running := h.running
  shifting := h.shifting
  raced_window := h.raced_window

/-! ### A command -/

/-- Every index of the effective window is one of the buffer's (R44). -/
theorem window_index_lt (s : State) {a : Addr}
    (h : a ∈ (List.range' s.window.start.toNat s.window.count.toNat).map (BitVec.ofNat 24)) :
    a.toNat < s.dataLen.val := by
  obtain ⟨i, hi, rfl⟩ := List.mem_map.mp h
  obtain ⟨hlo, hhi⟩ := List.mem_range'_1.mp hi
  have hcount := window_count s
  have hstop := window_stop_le s
  rw [BitVec.toNat_ofNat]
  exact Nat.lt_of_le_of_lt (Nat.mod_le _ _) (by omega)

theorem startByte_inv (d : Byte) {s : State} (h : s.Inv) (hb : s.busy = false) (hd : s.datapath = .bitSerial) :
    (s.startByte d).Inv := by
  obtain ⟨_, hp, hq, hraced⟩ := h.betweenSteps hb
  exact {
    reset_done := h.reset_done
    data_wf := h.data_wf
    data_bound := h.data_bound
    requests_bound := h.requests_bound
    idle := by simp
    undisturbed := fun _ => hraced
    req_running := by simp [hq]
    running := by simp [hp]
    shifting := fun _ _ => hd
    raced_window := by simp [hraced] }

theorem window_start_setWidth (s : State) : s.window.start.setWidth 24 = s.offset :=
  BitVec.eq_of_toNat_eq (by rw [BitVec.toNat_setWidth, window_start, Nat.mod_eq_of_lt s.offset.isLt])

theorem startRun_inv (c : BitVec 1) {s : State} (h : s.Inv) (hw : s.window.count ≠ 0#25) : (s.startRun c).Inv := by
  have hlt := window_start_lt_stop s hw
  have hoff := window_start s
  have hstop := window_stop_le s
  exact {
    reset_done := h.reset_done
    data_wf := h.data_wf
    data_bound := h.data_bound
    requests_bound := by
      rw [BitVec.lt_def] at hlt
      rw [State.startRun_requests, window_start_setWidth]
      refine List.forall_mem_cons.mpr ⟨?_, h.requests_bound⟩
      rw [State.startRun_dataLen]
      omega
    idle := by simp
    undisturbed := by simp
    req_running := by simp
    running := fun _ => ⟨hoff.ge, hlt, rfl⟩
    shifting := by simp
    raced_window := by simp }

theorem commandEffect_inv {i : Instr} {s t : State} (h : s.Inv) (hb : s.busy = false) (ht : s.CommandEffect i t) :
    t.Inv := by
  have hs := h.betweenSteps hb
  cases ht with
  | byteStarted d hd => exact startByte_inv d h hb hd
  | runStarted c hw => exact startRun_inv c h hw
  | runDone c =>
    refine .of_betweenSteps ⟨⟨h.reset_done, rfl⟩, rfl, rfl, rfl⟩ h.data_wf h.data_bound fun a ha => ?_
    rcases List.mem_append.mp ha with ha | ha
    · exact window_index_lt s (List.mem_reverse.mp ha)
    · exact h.requests_bound a ha
  | byteDone d => exact .of_betweenSteps ⟨⟨h.reset_done, rfl⟩, hs.2⟩ h.data_wf h.data_bound h.requests_bound
  | _ => exact .of_betweenSteps ⟨⟨h.reset_done, hb⟩, hs.2⟩ h.data_wf h.data_bound h.requests_bound

/-! ### An edge with a command in progress -/

/-- The end of a byte of a RUN is one of a RUN: `mem_req` is 1 during a RUN only. -/
theorem State.Inv.phase_running {s : State} (h : s.Inv) (hp : s.memReq = true ∨ s.phase = .running) :
    s.phase = .running := hp.elim h.req_running id

/-- Inside a window IDX + 1 does not wrap (R88). -/
theorem toNat_succ_of_lt {i j : Index} (h : i < j) : (i + 1#25).toNat = i.toNat + 1 := by
  rw [BitVec.lt_def] at h
  have := j.isLt
  rw [BitVec.toNat_add, BitVec.toNat_ofNat]
  omega

theorem request_next_inv (r : Crc) {s : State} (h : s.Inv) (hb : s.busy = true) (hp : s.phase = .running)
    (hi : s.idx + 1#25 < s.endIdx) : (State.request (s.idx + 1#25) { s with acc := r }).Inv := by
  obtain ⟨hle, hlt, hend⟩ := h.running hp
  have hsucc := toNat_succ_of_lt hlt
  have hstop := window_stop_le s
  have hreq : ((s.idx + 1#25).setWidth 24).toNat < s.dataLen.val := by
    rw [hend, BitVec.lt_def] at hi
    rw [BitVec.toNat_setWidth]
    exact Nat.lt_of_le_of_lt (Nat.mod_le _ _) (by omega)
  exact {
    reset_done := h.reset_done
    data_wf := h.data_wf
    data_bound := h.data_bound
    requests_bound := List.forall_mem_cons.mpr ⟨hreq, h.requests_bound⟩
    idle := by simp [hb]
    undisturbed := by simp [hp]
    req_running := fun _ => hp
    running := fun _ => ⟨hle.trans (by rw [State.request_idx]; omega), hi, hend⟩
    shifting := by simp
    raced_window := h.raced_window }

theorem busyEffect_inv {s t : State} (h : s.Inv) (hb : s.busy = true) (ht : s.BusyEffect t) : t.Inv := by
  cases ht with
  | waiting hq => exact h
  | byteTaken d hq hd => exact { h with idle := by simp [hb], req_running := nofun, shifting := fun _ _ => hd }
  | shifted hq hc => exact { h with idle := by simp [hb], running := h.running }
  | byteDone r hq hp hc =>
    exact .of_betweenSteps ⟨⟨h.reset_done, rfl⟩, hp, hq, h.undisturbed hp⟩ h.data_wf h.data_bound h.requests_bound
  | next r hp hi => exact request_next_inv r h hb (h.phase_running hp) hi
  | runDone r hp hi =>
    exact .of_betweenSteps ⟨⟨h.reset_done, rfl⟩, rfl, rfl, rfl⟩ h.data_wf h.data_bound h.requests_bound

/-! ### The host's write and reset -/

theorem hostWrite_inv {a : Addr} {b : Byte} {s t : State} (h : s.Inv) (ht : hostWrite a b s = .next t) : t.Inv := by
  obtain ⟨ha, rfl⟩ := hostWrite_eq a b s t ht
  exact {
    reset_done := h.reset_done
    data_wf := Memory.write_wf _ _ _ h.data_wf
    data_bound := fun x hx => (Memory.mem_write hx).elim (· ▸ ha) (h.data_bound x)
    requests_bound := h.requests_bound
    idle := h.idle
    undisturbed := fun hp => by
      have : s.phase = .idle := hp
      simp [State.inRunningWindow, this, h.undisturbed hp]
    req_running := h.req_running
    running := h.running
    shifting := h.shifting
    raced_window := fun i hi => by
      cases hw : s.inRunningWindow a.toNat with
      | false => exact h.raced_window i (by simpa [hw] using hi)
      | true =>
        simp only [hw, if_true] at hi
        rcases List.mem_cons.mp hi with rfl | hi
        · simp only [State.inRunningWindow, Bool.and_eq_true, decide_eq_true_eq] at hw
          exact ⟨hw.1.2, hw.2⟩
        · exact h.raced_window i (List.mem_filter.mp hi).1 }

theorem resetEdge_inv {s : State} (h : s.Inv) : s.resetEdge.Inv :=
  .of_betweenSteps ⟨⟨rfl, rfl⟩, rfl, rfl, rfl⟩ h.data_wf h.data_bound h.requests_bound

/-- Settles O43, by the cases of a step. -/
theorem stepKeepsInvariant : Obligations.StepKeepsInvariant := by
  intro s t h hst
  have hh (rest : List HostAction) (n : Nat) : State.Inv { s with host := rest, draws := n } := h.withHost rest n
  cases step_effect h.reset_done hst with
  | reset rest => exact resetEdge_inv (hh rest s.draws)
  | busy p rest n hb => exact busyEffect_inv (hh rest n) hb (busyEdge_effect p _)
  | command i rest n t hb hw ht => exact commandEffect_inv (hh rest n) hb ht
  | illegal w c rest n hb =>
    exact .of_betweenSteps (h.betweenSteps hb) h.data_wf h.data_bound h.requests_bound
  | idle rest n => exact hh rest n
  | write a b rest t ht => exact hostWrite_inv (hh rest s.draws) ht

end Sys2Proof.Machine
end

section
/-! PROOF. Which steps write ERR, OFFSET, LENGTH, CRC and BUSY (R18 to R25). -/

namespace Sys2Proof.Machine

/-- A flag that a step keeps has neither risen nor fallen. -/
theorem flag_kept {a b : Bool} {P Q : Prop} (h : b = a) :
    (a = false → b = true → P) ∧ (a = true → b = false → Q) := by
  subst h
  exact ⟨fun h h' => by simp [h] at h', fun h h' => by simp [h] at h'⟩

/-! ### ERR -/

theorem commandEffect_err {i : Instr} {s t : State} (h : s.CommandEffect i t) :
    t.err = s.err ∨ i = .clrerr ∧ t.err = false := by
  cases h with
  | clrerr => exact .inr ⟨rfl, rfl⟩
  | _ => exact .inl rfl

/-- Settles O33, by the cases of a step. -/
theorem errWriters : Obligations.ErrWriters := by
  intro s t hr hst
  cases step_effect hr hst with
  | reset rest h => exact ⟨fun _ ht => absurd ht Bool.false_ne_true, fun _ _ => .inl h⟩
  | busy p rest n hb => exact flag_kept (busyEdge_frame p { s with host := rest, draws := n }).err
  | command i rest n t hb hw ht =>
    rcases commandEffect_err ht with herr | ⟨rfl, herr⟩
    · exact flag_kept herr
    · exact ⟨fun _ ht => by simp [herr] at ht, fun _ _ => .inr hw⟩
  | illegal w c rest n hb hw hc =>
    exact ⟨fun _ _ => ⟨w, c, hw, hc⟩, fun _ ht => absurd ht.symm Bool.false_ne_true⟩
  | idle rest n => exact flag_kept rfl
  | write a b rest t ht =>
    obtain ⟨-, rfl⟩ := hostWrite_eq _ _ _ _ ht
    exact flag_kept rfl

/-! ### OFFSET and LENGTH -/

theorem commandEffect_offset {i : Instr} {s t : State} (h : s.CommandEffect i t) :
    t.offset = s.offset ∨ i = .setofs t.offset := by
  cases h with
  | setofs v => exact .inr rfl
  | _ => exact .inl rfl

theorem commandEffect_length {i : Instr} {s t : State} (h : s.CommandEffect i t) :
    t.length = s.length ∨ i = .setlen t.length := by
  cases h with
  | setlen v => exact .inr rfl
  | _ => exact .inl rfl

/-- Settles O45, by the cases of a step. -/
theorem windowRegisterWriters : Obligations.WindowRegisterWriters := by
  intro s t hr hst
  cases step_effect hr hst with
  | reset rest h => exact ⟨fun _ => .inl h, fun _ => .inl h⟩
  | busy p rest n hb =>
    have hf := busyEdge_frame p { s with host := rest, draws := n }
    exact ⟨absurd hf.offset, absurd hf.length⟩
  | command i rest n t hb hw ht =>
    refine ⟨fun hne => ?_, fun hne => ?_⟩
    · obtain rfl := (commandEffect_offset ht).resolve_left hne
      exact .inr ⟨_, hw, rfl⟩
    · obtain rfl := (commandEffect_length ht).resolve_left hne
      exact .inr ⟨_, hw, rfl⟩
  | illegal => exact ⟨absurd rfl, absurd rfl⟩
  | idle => exact ⟨absurd rfl, absurd rfl⟩
  | write a b rest t ht =>
    obtain ⟨-, rfl⟩ := hostWrite_eq _ _ _ _ ht
    exact ⟨absurd rfl, absurd rfl⟩

/-! ### CRC -/

/-- The commands that change CRC are INIT, BYTE, BIT and RUN (R40). -/
theorem commandEffect_crc {i : Instr} {s t : State} (h : s.CommandEffect i t) (hne : t.crc ≠ s.crc) :
    i = .init ∨ (∃ d, i = .byte d) ∨ (∃ x, i = .bit x) ∨ ∃ c, i = .run c := by
  cases h with
  | init => exact .inl rfl
  | byteDone d => exact .inr (.inl ⟨d, rfl⟩)
  | bit x => exact .inr (.inr (.inl ⟨x, rfl⟩))
  | runDone c => exact .inr (.inr (.inr ⟨c, rfl⟩))
  | _ => exact absurd rfl hne

/-- Settles O46, by the cases of a step. -/
theorem crcWriters : Obligations.CrcWriters := by
  intro s t hr hst hne
  cases step_effect hr hst with
  | reset rest h => exact .inr (.inl h)
  | busy p rest n hb => exact .inl hb
  | command i rest n t hb hw ht =>
    refine .inr (.inr ?_)
    rcases commandEffect_crc ht hne with rfl | ⟨d, rfl⟩ | ⟨x, rfl⟩ | ⟨c, rfl⟩
    · exact .inl hw
    · exact .inr (.inl ⟨d, hw⟩)
    · exact .inr (.inr (.inl ⟨x, hw⟩))
    · exact .inr (.inr (.inr ⟨c, hw⟩))
  | illegal => exact absurd rfl hne
  | idle => exact absurd rfl hne
  | write a b rest t ht =>
    obtain ⟨-, rfl⟩ := hostWrite_eq _ _ _ _ ht
    exact absurd rfl hne

/-- Settles O20: the last byte fixes the low byte of CRC, the byte before it the high byte. -/
theorem everyCrcIsReachable : Obligations.EveryCrcIsReachable := by
  refine ⟨fun i s t h hne => commandEffect_crc (exec_effect h) hne, fun s v hr _ => ?_⟩
  obtain ⟨d₁, d₂, hv⟩ := exists_updByte_updByte_eq s.crc v
  refine ⟨d₁, d₂, (s.completeByte (updByte s.crc d₁)).completeByte (updByte (updByte s.crc d₁) d₂), ?_, hv⟩
  have byte (d : Byte) (u : State) (hu : u.ready) :
      execWord (encode (.byte d)) u = .next (u.completeByte (updByte u.crc d)) :=
    execWord_legal _ _ u hu (decode_encode _)
  simp only [execWords, byte d₁ s hr, byte d₂ (s.completeByte _) ⟨hr.1, rfl⟩, State.completeByte_crc]

/-! ### BUSY -/

/-- BUSY rises with a RUN of a window that is not empty, or a BYTE on the bit-serial datapath. -/
theorem commandEffect_busy {i : Instr} {s t : State} (h : s.CommandEffect i t) (hs : s.busy = false)
    (ht : t.busy = true) :
    (∃ c, i = .run c ∧ s.window.count ≠ 0#25) ∨ ∃ d, i = .byte d ∧ s.datapath = .bitSerial := by
  cases h with
  | runStarted c hw => exact .inl ⟨c, rfl, hw⟩
  | byteStarted d hd => exact .inr ⟨d, rfl, hd⟩
  | byteDone | runDone => exact absurd ht Bool.false_ne_true
  | _ => exact absurd (hs.symm.trans ht) Bool.false_ne_true

/-- BUSY falls with the last bit of a BYTE or the last byte of a RUN. -/
theorem busyEffect_busy {s t : State} (h : s.BusyEffect t) (hs : s.Inv) (hb : s.busy = true) (ht : t.busy = false) :
    t.phase = .idle ∧ t.memReq = false ∧ (s.phase = .idle → s.bitCount = 7#3) ∧
      (s.phase = .running → s.idx + 1#25 = s.endIdx) := by
  cases h with
  | byteDone r hq hp hc => exact ⟨hp, hq, fun _ => hc, fun hrun => by simp [hp] at hrun⟩
  | runDone r hp hi =>
    have hrun := hs.phase_running hp
    obtain ⟨-, hlt, -⟩ := hs.running hrun
    have hsucc := toNat_succ_of_lt hlt
    refine ⟨rfl, rfl, fun hidle => by simp [hrun] at hidle, fun _ => BitVec.eq_of_toNat_eq ?_⟩
    rw [BitVec.lt_def] at hi hlt
    omega
  | _ => exact absurd (ht.symm.trans hb) Bool.false_ne_true

/-- Settles O60, by the cases of a step. -/
theorem busyWriters : Obligations.BusyWriters := by
  intro s t h hst
  cases step_effect h.reset_done hst with
  | reset rest hrst => exact ⟨fun _ ht => absurd ht Bool.false_ne_true, fun _ _ => .inl hrst⟩
  | busy p rest n hb =>
    refine ⟨fun hs => by simp [hs] at hb, fun _ ht => .inr ?_⟩
    exact busyEffect_busy (s := { s with host := rest, draws := n }) (busyEdge_effect p _) (h.withHost rest n) hb ht
  | command i rest n t hb hw ht =>
    refine ⟨fun _ htb => ?_, fun hs => by simp [hs] at hb⟩
    rcases commandEffect_busy ht hb htb with ⟨c, rfl, hwin⟩ | ⟨d, rfl, hd⟩
    · exact .inl ⟨c, hw, hwin⟩
    · exact .inr ⟨d, hw, hd⟩
  | illegal => exact flag_kept rfl
  | idle => exact flag_kept rfl
  | write a b rest t ht =>
    obtain ⟨-, rfl⟩ := hostWrite_eq _ _ _ _ ht
    exact flag_kept rfl

end Sys2Proof.Machine
end

section
/-! PROOF. The outputs, the ports and the accepting edge (R33 to R37, R123), and that no command depends on the hidden
registers (R29). -/

namespace Sys2Proof.Machine

/-! ### The outputs -/

theorem cmdReady_reset (p : Pins) (s : State) (h : s.wasReset = true) : cmdReady p s = (!s.busy && !p.rst) :=
  output_reset s _ _ h

theorem memAddrOut_reset (s : State) (h : s.wasReset = true) : memAddrOut s = s.idx.setWidth 24 :=
  output_reset s _ _ h

/-- Settles O37: the registers as R39 gives them, and `cmd_ready` as R117 does. -/
theorem resetState : Obligations.ResetState := by
  refine ⟨rfl, rfl, rfl, rfl, rfl, rfl, rfl, fun p hp => ?_, fun p hp => ?_⟩ <;>
  rw [cmdReady_reset p _ rfl, hp] <;> rfl

theorem endObservation_eq (s : State) (h : s.wasReset = true) :
    s.endObservation = if s.busy = true ∨ s.host.any HostAction.hasWord = true then none
      else some ⟨crcOut s, errOut s, s.requests.reverse⟩ := by
  cases hb : s.busy <;> cases hw : s.host.any HostAction.hasWord <;>
  simp [State.endObservation, h, hb, hw]

/-- Settles O50: after reset every output is its function of the registers. -/
theorem outputsShowRegisters : Obligations.OutputsShowRegisters := by
  refine ⟨fun p s h => ⟨cmdReady_reset p s h, output_reset s _ _ h, output_reset s _ _ h, fun hb => ?_,
    fun hb => ?_, fun hp => ?_, fun hp => ?_, memAddrOut_reset s h⟩, fun s h => ⟨?_, fun hb hw => ?_⟩⟩
  · rw [crcOut, output_reset s _ _ h, hb]; rfl
  · rw [crcOut, output_reset s _ _ h, hb]; rfl
  · rw [memReqOut, output_reset s _ _ h, hp]; simp
  · rw [memReqOut, output_reset s _ _ h, hp]; simp
  · rw [endObservation_eq s h]
    split <;> simp_all
  · rw [endObservation_eq s h, hb, hw, crcOut, errOut, output_reset s _ _ h, output_reset s _ _ h, hb]
    rfl

/-! ### The ports -/

theorem commandAccepted_busy (p : Pins) (s : State) (h : s.wasReset = true) (hb : s.busy = true) :
    commandAccepted p s = false := by simp [commandAccepted, cmdReady_reset p s h, hb]

/-- Settles O51: an edge with a command in progress looks at `rst` and the read port only. -/
theorem busyPortTakesNothing : Obligations.BusyPortTakesNothing := by
  intro p s v w h hb
  refine ⟨by simp [cmdReady_reset p s h, hb], commandAccepted_busy p s h hb, ?_⟩
  rcases Bool.eq_false_or_eq_true p.rst with hrst | hrst
  · exact (clockEdge_reset { p with cmdValid := v, cmdWord := w } s hrst).trans (clockEdge_reset p s hrst).symm
  · exact (clockEdge_busy { p with cmdValid := v, cmdWord := w } s hrst h hb).trans
      (clockEdge_busy p s hrst h hb).symm

/-- With `mem_req` = 0 an edge does not look at the read port. -/
theorem busyEdge_ignores_ack (p : Pins) (s : State) (k : Bool) (d : Byte) (hq : s.memReq = false) :
    s.busyEdge { p with memAck := k, memRdata := d } = s.busyEdge p := by
  rw [busyEdge_shifting _ s hq, busyEdge_shifting _ s hq]

theorem clockEdge_ignores_ack (p : Pins) (s : State) (k : Bool) (d : Byte) (hq : s.memReq = false) :
    clockEdge { p with memAck := k, memRdata := d } s = clockEdge p s := by
  unfold clockEdge
  rw [busyEdge_ignores_ack p s.tick k d hq]
  rfl

theorem State.Inv.busy_of_memReq {s : State} (h : s.Inv) (hq : s.memReq = true) : s.busy = true := by
  cases hb : s.busy with
  | true => rfl
  | false => simp [(h.idle hb).2] at hq

/-- Settles O52, by what an edge does with a request that waits, with none, and with one that is answered. -/
theorem readPortHandshake : Obligations.ReadPortHandshake := by
  refine ⟨fun p s h hb hq hrst ha => ?_, clockEdge_ignores_ack, fun p s h hq hrst ha => ?_⟩
  · rw [clockEdge_busy p s hrst h hb, busyEdge_waiting p s.tick hq ha]
    rfl
  · refine ⟨s.tick.takeByte p.memRdata, ?_, fun hd => ?_, fun hd hi => ?_, fun hd hi => ?_⟩
    · rw [clockEdge_busy p s hrst h.reset_done (h.busy_of_memReq hq), busyEdge_answered p s.tick hq ha]
    · rw [takeByte_bitSerial _ s.tick hd]
      exact ⟨rfl, rfl, rfl⟩
    · rw [takeByte_byteParallel _ s.tick hd, updByteGates_eq_updByte, advance_next _ s.tick hi]
      exact ⟨rfl, rfl, memAddrOut_reset _ h.reset_done⟩
    · rw [takeByte_byteParallel _ s.tick hd, updByteGates_eq_updByte, advance_runDone _ s.tick hi]
      exact ⟨rfl, rfl, rfl⟩

/-! ### The accepting edge -/

theorem decode_of_decodeTableWord {n w : Nat} {i : Instr} (h : decodeTableWord n w = some i) :
    decode (BitVec.ofNat 32 w) = .legal i := by
  unfold decodeTableWord at h
  split at h
  · cases hd : decode (BitVec.ofNat 32 w) with
    | legal j =>
      rw [hd] at h
      cases h
      rfl
    | illegal c =>
      rw [hd] at h
      cases h
  · cases h

/-- A word placed at the port of a block between two steps is its next step. -/
theorem step_withFetchWord (s : State) (n w : Nat) (hs : s.betweenSteps) :
    step (s.withFetchWord n w) = execWord (BitVec.ofNat 32 w) s := by
  obtain ⟨⟨hr, hb⟩, hp, hq, hraced⟩ := hs
  rw [step_present_ready _ (BitVec.ofNat 32 w) s.host rfl ⟨rfl, rfl⟩]
  have same : { s.withFetchWord n w with host := s.host } = s := by
    cases s
    simp_all [State.withFetchWord]
  rw [same]

theorem clockEdge_accept_legal (p : Pins) (s : State) (i : Instr) (hrst : p.rst = false) (hv : p.cmdValid = true)
    (hr : s.ready) (hd : decode p.cmdWord = .legal i) : clockEdge p s = acceptInstr i s.tick := by
  rw [clockEdge_accept p s hrst hv hr, acceptWord_legal _ hd]

/-- Settles O41, by what a ready block does with a word, at the step and at the accepting edge. -/
theorem stepRunsDecodedCommand : Obligations.StepRunsDecodedCommand := by
  refine ⟨fun s w rest i hh hr hd => ?_, fun s w rest c hh hr hd => ?_, fun s n w i hs hd => ?_,
    fun p s i hrst hv hr hd hbyte hrun => ?_, fun p s c hrst hv hr hd => ?_, fun p s d hrst hv hr hd => ?_⟩
  · exact (step_present_ready s w rest hh hr).trans (execWord_legal w i { s with host := rest } hr hd)
  · exact (step_present_ready s w rest hh hr).trans (execWord_illegal w c { s with host := rest } hr hd)
  · rw [step_withFetchWord s n w hs, execWord_legal _ i s hs.1 (decode_of_decodeTableWord hd)]
  · rw [clockEdge_accept_legal p s i hrst hv hr hd, acceptInstr_eq_exec _ hbyte hrun]
  · rw [clockEdge_accept_legal p s _ hrst hv hr hd]
    refine ⟨acceptRun_empty c s.tick, fun hw => ⟨_, acceptRun_nonempty c s.tick hw, ?_, ?_, window_start s, rfl, rfl⟩⟩
    · rw [← window_start_setWidth s]
      rfl
    · exact (memAddrOut_reset (s.tick.startRun c) hr.1).trans (window_start_setWidth s)
  · rw [clockEdge_accept_legal p s _ hrst hv hr hd]
    exact ⟨acceptByte_byteParallel d s.tick, fun hd => ⟨_, acceptByte_bitSerial d s.tick hd, rfl, rfl, rfl, rfl⟩⟩

/-! ### The hidden registers -/

/-- The hidden registers and the count of draws, set to what they are in `s'`. -/
def State.withHidden (s s' : State) : State :=
  { s with
    idx := s'.idx
    endIdx := s'.endIdx
    acc := s'.acc
    bitCount := s'.bitCount
    shiftByte := s'.shiftByte
    draws := s'.draws }

theorem eq_withHidden_of_forgetHidden {s s' : State} (h : s.forgetHidden = s'.forgetHidden) : s' = s.withHidden s' := by
  cases s
  cases s'
  simp_all [State.forgetHidden, State.withHidden]

/-- Every command answers the same next state whatever the hidden registers hold, hidden registers apart (R29). -/
theorem exec_withHidden (i : Instr) (s s' t : State) (h : exec i s = .next t) :
    ∃ t', exec i (s.withHidden s') = .next t' ∧ t'.forgetHidden = t.forgetHidden := by
  cases i with
  | run c =>
    by_cases hc : s.window.count = 0#25 ∨ s.hostAnswers = true
    · rw [exec_run_answered c s hc] at h
      cases h
      exact ⟨_, exec_run_answered c (s.withHidden s') hc, rfl⟩
    · rw [exec_run_unanswered c s hc] at h
      cases h
      exact ⟨_, exec_run_unanswered c (s.withHidden s') hc, rfl⟩
  | _ =>
    cases h
    exact ⟨_, rfl, rfl⟩

/-- Settles O49: the one state is the other with its hidden registers replaced. -/
theorem hiddenStateIsInvisible : Obligations.HiddenStateIsInvisible := by
  intro w s s' t hs hf h
  have hr' : (s.withHidden s').ready := hs.1
  rw [eq_withHidden_of_forgetHidden hf]
  cases hd : decode w with
  | legal i =>
    rw [execWord_legal w i s hs.1 hd] at h
    rw [execWord_legal w i _ hr' hd]
    exact exec_withHidden i s s' t h
  | illegal c =>
    rw [execWord_illegal w c s hs.1 hd] at h
    rw [execWord_illegal w c _ hr' hd]
    cases h
    exact ⟨_, rfl, rfl⟩

end Sys2Proof.Machine
end

section
/-! PROOF. A RUN that completes at the signals leaves what RUN leaves as one step (R36, R84, R89). The idea: whatever
edge comes, the CRC and the requests that a RUN in progress will end with stay the same, since an edge only moves work
from what is left to what is done. -/

namespace Sys2Proof.Machine

/-! ### What a RUN in progress will end with -/

/-- The accumulator after `n` more shifts of the byte `d`. -/
def shiftIn : Nat → Crc → Byte → Crc
  | 0, c, _ => c
  | n + 1, c, d => shiftIn n (updBit c (d.extractLsb' 7 1)) (d <<< 1)

theorem extractLsb'_shiftLeft_one (d : Byte) (k : Nat) (hk : 1 ≤ k ∧ k < 8) :
    (d <<< 1).extractLsb' k 1 = d.extractLsb' (k - 1) 1 := by
  apply BitVec.eq_of_getLsbD_eq
  intro i hi
  obtain rfl : i = 0 := by omega
  rw [BitVec.getLsbD_extractLsb', BitVec.getLsbD_extractLsb', BitVec.getLsbD_shiftLeft]
  simp [hk.2, show ¬ k < 1 by omega]

/-- Eight shifts take in the whole byte, bit 7 first (R78). -/
theorem shiftIn_eight (c : Crc) (d : Byte) : shiftIn 8 c d = updByte c d := by
  rw [← updByteSerial_eq_updByte]
  simp only [shiftIn, updByteSerial, extractLsb'_shiftLeft_one, Nat.reduceLeDiff, Nat.reduceLT, Nat.reduceSub, and_self]

/-- The accumulator once the byte at IDX, awaited or half shifted, is in. -/
def State.foldedAcc (s : State) : Crc :=
  if s.memReq then updByte s.acc (Memory.read s.data s.idx.toNat)
  else shiftIn (8 - s.bitCount.toNat) s.acc s.shiftByte

/-- The completed RUN, with the bytes from index `i` to END still to be read. -/
def State.completedFrom (i : Nat) (s : State) : State :=
  { s.completeRun (crcOf s.acc (s.windowBytes i (s.endIdx.toNat - i))) with
    requests := ((List.range' i (s.endIdx.toNat - i)).map (BitVec.ofNat 24)).reverse ++ s.requests }

/-- The completed RUN, with the byte at IDX requested already. -/
def State.runResult (s : State) : State := State.completedFrom (s.idx.toNat + 1) { s with acc := s.foldedAcc }

/-- A RUN in progress, at a byte of its window. -/
structure State.RunInProgress (s : State) : Prop where
  reset_done : s.wasReset = true
  busy : s.busy = true
  running : s.phase = .running
  inside : s.idx < s.endIdx

/-- The RUN has completed with `r`, or is in progress and will. -/
def State.LeadsTo (s r : State) : Prop :=
  s.busy = false ∧ s.forgetHidden = r.forgetHidden ∨
  s.RunInProgress ∧ s.runResult.forgetHidden = r.forgetHidden

/-- A request moves one byte from those to be read to the one awaited. -/
theorem request_runResult (i : Index) (s : State) (h : i < s.endIdx) :
    (s.request i).runResult.forgetHidden = (s.completedFrom i.toNat).forgetHidden := by
  rw [BitVec.lt_def] at h
  obtain ⟨n, hn⟩ : ∃ n, s.endIdx.toNat - i.toNat = n + 1 := ⟨s.endIdx.toNat - i.toNat - 1, by omega⟩
  have hn' : s.endIdx.toNat - (i.toNat + 1) = n := by omega
  have hi : BitVec.ofNat 24 i.toNat = i.setWidth 24 := BitVec.eq_of_toNat_eq (by simp)
  simp [State.runResult, State.completedFrom, State.foldedAcc, State.windowBytes, hn, hn', hi, List.range'_succ, crcOf,
    State.forgetHidden]

/-- Past the window's end nothing is left to be read. -/
theorem completedFrom_end (i : Nat) (s : State) (h : s.endIdx.toNat ≤ i) :
    s.completedFrom i = s.completeRun s.acc := by
  rw [State.completedFrom, Nat.sub_eq_zero_of_le h]
  rfl

/-- What a RUN ends with depends on the registers of the byte in progress only through the accumulator they lead to. -/
theorem runResult_of_foldedAcc (s : State) (acc : Crc) (n : BitVec 3) (d : Byte) (q : Bool) (k : Nat)
    (h : State.foldedAcc { s with acc := acc, bitCount := n, shiftByte := d, memReq := q, draws := k } = s.foldedAcc) :
    (State.runResult { s with acc := acc, bitCount := n, shiftByte := d, memReq := q, draws := k }).forgetHidden =
      s.runResult.forgetHidden := by
  rw [State.runResult, h]
  rfl

/-! ### The accepting edge -/

theorem startRun_leadsTo (c : BitVec 1) (s : State) (hr : s.wasReset = true) (hw : s.window.count ≠ 0#25) :
    (s.startRun c).LeadsTo (s.answeredRun c) := by
  have hlt := window_start_lt_stop s hw
  refine .inr ⟨⟨hr, rfl, rfl, hlt⟩, (request_runResult _ _ hlt).trans ?_⟩
  rw [State.answeredRun, window_count]
  rfl

/-- The edge that accepts a RUN completes it or starts it. -/
theorem clockEdge_run_leadsTo {c : BitVec 1} {s t : State} {p : Pins} (hr : s.ready) (hp : p.presents (.run c))
    (h : clockEdge p s = .next t) : t.LeadsTo (s.answeredRun c) := by
  obtain ⟨hrst, hv, hword⟩ := hp
  have hd : decode p.cmdWord = .legal (.run c) := by rw [hword, decode_encode]
  rw [clockEdge_accept_legal p s _ hrst hv hr hd] at h
  change acceptRun c s.tick = .next t at h
  by_cases hw : s.window.count = 0#25
  · rw [acceptRun_empty c s.tick hw, exec_run_answered c s.tick (.inl hw)] at h
    cases h
    exact .inl ⟨rfl, rfl⟩
  · rw [acceptRun_nonempty c s.tick hw] at h
    cases h
    exact startRun_leadsTo c s.tick hr.1 hw

/-! ### The edges after it -/

/-- The end of a byte: the next one is requested, or the RUN is complete. -/
theorem advance_leadsTo (s : State) (h : s.RunInProgress) : (s.advance s.foldedAcc).LeadsTo s.runResult := by
  have hsucc := toNat_succ_of_lt h.inside
  by_cases hi : s.idx + 1#25 < s.endIdx
  · rw [advance_next _ s hi]
    refine .inr ⟨⟨h.reset_done, h.busy, h.running, hi⟩, ?_⟩
    refine (request_runResult _ { s with acc := s.foldedAcc } hi).trans ?_
    rw [hsucc]
    rfl
  · rw [advance_runDone _ s hi]
    rw [BitVec.lt_def] at hi
    refine .inl ⟨rfl, ?_⟩
    rw [State.runResult, completedFrom_end _ _ (by simp only; omega)]
    rfl

/-- An answered request: the byte is folded in, or is to be shifted in. -/
theorem takeByte_leadsTo (s : State) (h : s.RunInProgress) (hq : s.memReq = true) :
    (s.takeByte (Memory.read s.data s.idx.toNat)).LeadsTo s.runResult := by
  have hf : s.foldedAcc = updByte s.acc (Memory.read s.data s.idx.toNat) := if_pos hq
  cases hd : s.datapath with
  | byteParallel =>
    rw [takeByte_byteParallel _ s hd, updByteGates_eq_updByte, ← hf]
    exact advance_leadsTo s h
  | bitSerial =>
    rw [takeByte_bitSerial _ s hd]
    refine .inr ⟨⟨h.reset_done, h.busy, h.running, h.inside⟩, runResult_of_foldedAcc s _ _ _ _ _ ?_⟩
    rw [hf, ← shiftIn_eight]
    rfl

/-- A shift: one bit of the byte in progress is taken in, the last of which ends it. -/
theorem shiftEdge_leadsTo (s : State) (h : s.RunInProgress) (hq : s.memReq = false) :
    s.shiftEdge.LeadsTo s.runResult := by
  have hf : s.foldedAcc = shiftIn (8 - s.bitCount.toNat) s.acc s.shiftByte := if_neg (by simp [hq])
  by_cases hc : s.bitCount = 7#3
  · have hlast : s.foldedAcc = updBit s.acc (s.shiftByte.extractLsb' 7 1) := by
      rw [hf, hc]
      rfl
    rw [shiftEdge_last s hc, byteShifted_running _ s h.running, ← hlast]
    exact advance_leadsTo s h
  · rw [shiftEdge_inner s hc]
    refine .inr ⟨⟨h.reset_done, h.busy, h.running, h.inside⟩, runResult_of_foldedAcc s _ _ _ _ _ ?_⟩
    have hlt : s.bitCount.toNat < 7 := by
      have := s.bitCount.isLt
      have : s.bitCount.toNat ≠ 7 := fun h7 => hc (BitVec.eq_of_toNat_eq h7)
      omega
    have hnext : (s.bitCount + 1#3).toNat = s.bitCount.toNat + 1 := by
      rw [BitVec.toNat_add, BitVec.toNat_ofNat]
      omega
    rw [hf, show 8 - s.bitCount.toNat = (8 - (s.bitCount.toNat + 1)) + 1 by omega, shiftIn, State.foldedAcc]
    simp [hq, hnext]

theorem busyEdge_leadsTo (p : Pins) (s : State) (h : s.RunInProgress) (hp : p.honest s) :
    (s.busyEdge p).LeadsTo s.runResult := by
  cases hq : s.memReq with
  | true =>
    cases ha : p.memAck with
    | true =>
      rw [busyEdge_answered p s hq ha, hp.2 ha hq]
      exact takeByte_leadsTo s h hq
    | false =>
      rw [busyEdge_waiting p s hq ha]
      exact .inr ⟨h, rfl⟩
  | false =>
    rw [busyEdge_shifting p s hq]
    exact shiftEdge_leadsTo s h hq

/-- Honest edges keep what the RUN ends with. -/
theorem clockUntilIdle_leadsTo (ps : List Pins) (s t r : State) (h : s.LeadsTo r) (hps : honestEdges ps s)
    (ht : clockUntilIdle ps s = .next t) : t.LeadsTo r := by
  induction ps generalizing s with
  | nil =>
    cases ht
    exact h
  | cons p ps ih =>
    rcases h with ⟨hb, hf⟩ | ⟨hrun, hf⟩
    · rw [clockUntilIdle, hb] at ht
      cases ht
      exact .inl ⟨hb, hf⟩
    · obtain ⟨hp, hps⟩ := hps
      have hedge := clockEdge_busy p s hp.1 hrun.reset_done hrun.busy
      rw [clockUntilIdle, hrun.busy, if_pos rfl, hedge] at ht
      have htick : s.tick.RunInProgress := ⟨hrun.reset_done, hrun.busy, hrun.running, hrun.inside⟩
      have hnext := busyEdge_leadsTo p s.tick htick hp
      have hr : s.tick.runResult.forgetHidden = r.forgetHidden := hf
      exact ih _ (hnext.imp (.imp_right (·.trans hr)) (.imp_right (·.trans hr))) (hps _ hedge) ht

/-- Settles O55: what the RUN ends with is fixed at its accepting edge and kept by every later one. -/
theorem runRefinesArchitecturalStep : Obligations.RunRefinesArchitecturalStep := by
  intro c s s₁ t p ps hs hp hedge hps ht hb
  refine ⟨_, exec_run_answered c { s with hostAnswers := true } (.inr rfl), ?_⟩
  have h := clockUntilIdle_leadsTo ps s₁ t _ (clockEdge_run_leadsTo hs.1 hp hedge) hps ht
  rcases h with ⟨-, hf⟩ | ⟨hrun, -⟩
  · exact hf
  · exact absurd hrun.busy (by simp [hb])

end Sys2Proof.Machine
end

section
/-! PROOF. Who writes the data buffer and who reads it (R42, R44, R54): no word and no edge writes it or stops the block, so
whatever the host has next but a write of its own leads to a next state with the same buffer. -/

namespace Sys2Proof.Machine

/-! ### What every word and every edge keeps -/

/-- The configuration as R36 gives it: DATA_LEN, DATAPATH and DATA. -/
structure State.SameConfig (s t : State) : Prop where
  dataLen : t.dataLen = s.dataLen
  datapath : t.datapath = s.datapath
  data : t.data = s.data

/-- What the host has pending and the draws are no part of the configuration. -/
theorem State.SameConfig.of_withHost {s t : State} {rest : List HostAction} {n : Nat}
    (h : State.SameConfig { s with host := rest, draws := n } t) : s.SameConfig t := ⟨h.dataLen, h.datapath, h.data⟩

/-- A command answers a next state with the same configuration. -/
theorem exec_sameConfig (i : Instr) (s : State) : ∃ t, exec i s = .next t ∧ s.SameConfig t := by
  cases i with
  | run c =>
    by_cases h : s.window.count = 0#25 ∨ s.hostAnswers = true
    · exact ⟨_, exec_run_answered c s h, rfl, rfl, rfl⟩
    · exact ⟨_, exec_run_unanswered c s h, rfl, rfl, rfl⟩
  | _ => exact ⟨_, rfl, rfl, rfl, rfl⟩

theorem execWord_sameConfig (w : Word) (s : State) : ∃ t, execWord w s = .next t ∧ s.SameConfig t := by
  cases hr : s.wasReset with
  | false => exact ⟨_, execWord_unreset w s hr, rfl, rfl, rfl⟩
  | true =>
    cases hb : s.busy with
    | true => exact ⟨_, execWord_busy w s hr hb, rfl, rfl, rfl⟩
    | false =>
      cases hd : decode w with
      | legal i =>
        rw [execWord_legal w i s ⟨hr, hb⟩ hd]
        exact exec_sameConfig i s
      | illegal c => exact ⟨_, execWord_illegal w c s ⟨hr, hb⟩ hd, rfl, rfl, rfl⟩

theorem acceptInstr_sameConfig (i : Instr) (s : State) : ∃ t, acceptInstr i s = .next t ∧ s.SameConfig t := by
  cases i with
  | byte d =>
    cases hd : s.datapath with
    | byteParallel => exact ⟨_, acceptByte_byteParallel d s hd, rfl, rfl, rfl⟩
    | bitSerial => exact ⟨_, acceptByte_bitSerial d s hd, rfl, rfl, rfl⟩
  | run c =>
    by_cases hw : s.window.count = 0#25
    · exact ⟨_, (acceptRun_empty c s hw).trans (exec_run_answered c s (.inl hw)), rfl, rfl, rfl⟩
    · exact ⟨_, acceptRun_nonempty c s hw, rfl, rfl, rfl⟩
  | _ => exact ⟨_, rfl, rfl, rfl, rfl⟩

theorem acceptWord_sameConfig (w : Word) (s : State) : ∃ t, acceptWord w s = .next t ∧ s.SameConfig t := by
  cases hd : decode w with
  | legal i =>
    rw [acceptWord_legal s hd]
    exact acceptInstr_sameConfig i s
  | illegal c => exact ⟨_, acceptWord_illegal s hd, rfl, rfl, rfl⟩

/-- An edge answers a next state with the same configuration, before the first reset edge too. -/
theorem clockEdge_sameConfig (p : Pins) (s : State) : ∃ t, clockEdge p s = .next t ∧ s.SameConfig t := by
  cases hrst : p.rst with
  | true => exact ⟨_, clockEdge_reset p s hrst, rfl, rfl, rfl⟩
  | false =>
    cases hr : s.wasReset with
    | false => exact ⟨_, clockEdge_unreset p s hrst hr, rfl, rfl, rfl⟩
    | true =>
      cases hb : s.busy with
      | true =>
        have hf := busyEdge_frame p s.tick
        exact ⟨_, clockEdge_busy p s hrst hr hb, hf.dataLen, hf.datapath, hf.data⟩
      | false =>
        cases hv : p.cmdValid with
        | false => exact ⟨_, clockEdge_idle p s hrst hv ⟨hr, hb⟩, rfl, rfl, rfl⟩
        | true =>
          obtain ⟨t, ht, hc⟩ := acceptWord_sameConfig p.cmdWord s.tick
          exact ⟨t, (clockEdge_accept p s hrst hv ⟨hr, hb⟩).trans ht, hc.of_withHost⟩

/-- A word that the port cannot take is held there for an edge; before reset the block may have taken it (R121, R123). -/
theorem step_present_held (s : State) (w : Word) (rest : List HostAction) (h : s.host = .present w :: rest)
    (hr : ¬ s.ready) : ∃ pending, step s = clockEdge (s.holdPins w) { s with host := pending } := by
  simp only [step, h, if_neg hr]
  split
  · exact ⟨rest, rfl⟩
  · exact ⟨s.host, rfl⟩

/-- A step is the host's write, or answers a next state with the same configuration. -/
theorem step_write_or_sameConfig (s : State) :
    (∃ a b rest, s.host = .write a b :: rest) ∨ ∃ t, step s = .next t ∧ s.SameConfig t := by
  cases hh : s.host with
  | nil =>
    rw [step_quiet s hh]
    exact .inr (clockEdge_sameConfig s.quietPins s)
  | cons act rest =>
    cases act with
    | write a b => exact .inl ⟨a, b, rest, rfl⟩
    | edge p =>
      obtain ⟨t, ht, hc⟩ := clockEdge_sameConfig p { s with host := rest }
      exact .inr ⟨t, (step_edge s p rest hh).trans ht, hc.of_withHost⟩
    | present w =>
      by_cases hr : s.ready
      · obtain ⟨t, ht, hc⟩ := execWord_sameConfig w { s with host := rest }
        exact .inr ⟨t, (step_present_ready s w rest hh hr).trans ht, hc.of_withHost⟩
      · obtain ⟨pending, he⟩ := step_present_held s w rest hh hr
        obtain ⟨t, ht, hc⟩ := clockEdge_sameConfig (s.holdPins w) { s with host := pending }
        exact .inr ⟨t, he.trans ht, hc.of_withHost⟩

/-! ### The host's write -/

/-- A write to a byte of the buffer answers a next state. -/
theorem hostWrite_of_lt (a : Addr) (b : Byte) (s : State) (h : a.toNat < s.dataLen.val) :
    hostWrite a b s = .next { s with
      data := Memory.write s.data a.toNat b
      raced := if s.inRunningWindow a.toNat then a.toNat :: s.raced.filter (· ≠ a.toNat) else s.raced } :=
  if_pos h

theorem hostWrite_ne_refused (a : Addr) (b : Byte) (s : State) (r : Refusal) : hostWrite a b s ≠ .refused r := by
  unfold hostWrite
  split <;> exact nofun

/-- Only a write to a byte that does not exist is a fault. -/
theorem le_of_hostWrite_fault {a : Addr} {b : Byte} {s : State} {r : Fault} (h : hostWrite a b s = .fault r) :
    s.dataLen.val ≤ a.toNat := by
  refine Nat.le_of_not_lt fun ha => ?_
  rw [hostWrite_of_lt a b s ha] at h
  cases h

theorem State.Inv.idx_lt_dataLen {s : State} (h : s.Inv) (hp : s.phase = .running) : s.idx.toNat < s.dataLen.val := by
  obtain ⟨-, hlt, hend⟩ := h.running hp
  rw [hend, BitVec.lt_def] at hlt
  exact Nat.lt_of_lt_of_le hlt (window_stop_le s)

/-- Settles O44: a request is at IDX, inside the window of a RUN, and the host's write alone can stop the machine. -/
theorem noReadOutsideBuffer : Obligations.NoReadOutsideBuffer := by
  intro s hs
  refine ⟨fun hq => ?_, fun r hst => ?_, fun r hst => ?_⟩
  · rw [memAddrOut_reset s hs.reset_done, BitVec.toNat_setWidth]
    exact Nat.lt_of_le_of_lt (Nat.mod_le _ _) (hs.idx_lt_dataLen (hs.req_running hq))
  · rcases step_write_or_sameConfig s with ⟨a, b, rest, hh⟩ | ⟨t, ht, -⟩
    · exact hostWrite_ne_refused a b _ r ((step_write s a b rest hh).symm.trans hst)
    · cases ht.symm.trans hst
  · rcases step_write_or_sameConfig s with ⟨a, b, rest, hh⟩ | ⟨t, ht, -⟩
    · exact ⟨a, b, rest, hh, le_of_hostWrite_fault (s := { s with host := rest })
        ((step_write s a b rest hh).symm.trans hst)⟩
    · cases ht.symm.trans hst

/-- Settles O47: only the host's write changes a byte, and only its own. -/
theorem onlyTheHostWritesTheBuffer : Obligations.OnlyTheHostWritesTheBuffer := by
  intro s t hwf hst
  rcases step_write_or_sameConfig s with ⟨a, b, rest, hh⟩ | ⟨u, hu, hc⟩
  · rw [step_write s a b rest hh] at hst
    obtain ⟨-, rfl⟩ := hostWrite_eq _ _ _ _ hst
    refine ⟨rfl, rfl, fun i hne => ⟨a, b, rest, hh, ?_⟩⟩
    rw [Memory.read_write _ _ _ _ hwf] at hne ⊢
    split
    · next hi => exact ⟨hi, rfl⟩
    · next hi => exact absurd (if_neg hi) hne
  · cases hu.symm.trans hst
    exact ⟨hc.dataLen, hc.datapath, fun i hne => absurd (congrArg (Memory.read · i) hc.data) hne⟩

/-- Settles O48: below DATA_LEN the byte read is the listed one, which the write replaces at its own index only. -/
theorem hostWriteIsSeen : Obligations.HostWriteIsSeen := by
  intro a b s hwf ha
  refine ⟨_, hostWrite_of_lt a b s ha, fun i => ?_, Memory.write_wf _ _ _ hwf, rfl, rfl, rfl, rfl, rfl⟩
  by_cases hi : i.toNat < s.dataLen.val
  · simp only [State.memRead, if_pos hi, Memory.read_write _ _ _ _ hwf]
  · have hne : i.toNat ≠ a.toNat := by omega
    simp only [State.memRead, if_neg hi, if_neg hne]

end Sys2Proof.Machine
end

section
/-! PROOF. A host write during a RUN (R55, R124). Inside the window the byte reads as a free value. Outside it, the RUN that
saw the write is the RUN that did not, with another buffer: the two buffers agree on the window, and a RUN requests no
other index. -/

namespace Sys2Proof.Machine

/-! ### Inside the window -/

theorem Memory.read_place_of_ne {a i : Nat} (b : Byte) (m : Memory) (h : i ≠ a) :
    Memory.read (Memory.place a b m) i = Memory.read m i := by
  unfold Memory.place
  split
  · rfl
  · rw [Memory.read, if_neg h]

/-- Writing one byte leaves what every other index reads as, whatever the form of the buffer. -/
theorem Memory.read_write_of_ne {a i : Nat} (b : Byte) (m : Memory) (h : i ≠ a) :
    Memory.read (Memory.write m a b) i = Memory.read m i := by
  induction m with
  | nil => exact Memory.read_place_of_ne b [] h
  | cons x m ih =>
    obtain ⟨k, c⟩ := x
    unfold Memory.write
    split
    · exact Memory.read_place_of_ne b _ h
    · split
      · next hak => rw [Memory.read_place_of_ne b m h, Memory.read, if_neg (hak ▸ h)]
      · rw [Memory.read, Memory.read, ih]

theorem sampleByte_raced (s : State) {i : Nat} (h : i ∈ s.raced) : s.sampleByte i = Config.freeByte s.draws := if_pos h

/-- The host samples alike where two states agree on the byte, on whether it was disturbed, and on the draws. -/
theorem sampleByte_congr {s t : State} {i : Nat} (hraced : i ∈ t.raced ↔ i ∈ s.raced) (hdraws : t.draws = s.draws)
    (hread : Memory.read t.data i = Memory.read s.data i) : t.sampleByte i = s.sampleByte i := by
  simp only [State.sampleByte, hraced, hdraws, hread]

theorem inRunningWindow_eq_true {s : State} {a : Nat} :
    s.inRunningWindow a = true ↔
      (s.busy = true ∧ s.phase = .running) ∧ s.offset.toNat ≤ a ∧ a < s.endIdx.toNat := by
  simp [State.inRunningWindow, and_assoc]

/-- Settles O57: the index is listed as disturbed, and no other index is. -/
theorem changedByteReadsFree : Obligations.ChangedByteReadsFree := by
  intro a b s t hb hp hlo hhi hw
  obtain ⟨-, rfl⟩ := hostWrite_eq a b s t hw
  simp only [inRunningWindow_eq_true.mpr ⟨⟨hb, hp⟩, hlo, hhi⟩, if_true]
  refine ⟨sampleByte_raced _ List.mem_cons_self, fun i hi => ?_⟩
  exact sampleByte_congr (by simp [hi]) rfl (Memory.read_write_of_ne b s.data hi)

/-! ### Outside the window: the same block with another buffer -/

/-- The state with another buffer. -/
def State.withData (d : Memory) (s : State) : State := { s with data := d }

theorem advance_withData (d : Memory) (r : Crc) (s : State) :
    (s.withData d).advance r = (s.advance r).withData d := by
  by_cases hi : s.idx + 1#25 < s.endIdx
  · exact (advance_next r (s.withData d) hi).trans (congrArg (State.withData d) (advance_next r s hi).symm)
  · exact (advance_runDone r (s.withData d) hi).trans (congrArg (State.withData d) (advance_runDone r s hi).symm)

theorem takeByte_withData (d : Memory) (x : Byte) (s : State) :
    (s.withData d).takeByte x = (s.takeByte x).withData d := by
  cases hd : s.datapath with
  | byteParallel =>
    rw [takeByte_byteParallel x s hd, takeByte_byteParallel x (s.withData d) hd]
    exact advance_withData d _ s
  | bitSerial =>
    rw [takeByte_bitSerial x s hd, takeByte_bitSerial x (s.withData d) hd]
    rfl

theorem byteShifted_withData (d : Memory) (r : Crc) (s : State) :
    (s.withData d).byteShifted r = (s.byteShifted r).withData d := by
  cases hp : s.phase with
  | idle =>
    rw [byteShifted_idle r s hp, byteShifted_idle r (s.withData d) hp]
    rfl
  | running =>
    rw [byteShifted_running r s hp, byteShifted_running r (s.withData d) hp]
    exact advance_withData d r s

theorem shiftEdge_withData (d : Memory) (s : State) : (s.withData d).shiftEdge = s.shiftEdge.withData d := by
  by_cases hc : s.bitCount = 7#3
  · rw [shiftEdge_last s hc, shiftEdge_last (s.withData d) hc]
    exact byteShifted_withData d _ s
  · rw [shiftEdge_inner s hc, shiftEdge_inner (s.withData d) hc]
    rfl

/-- A command in progress sees the buffer through the read port only. -/
theorem busyEdge_withData (d : Memory) (p : Pins) (s : State) :
    (s.withData d).busyEdge p = (s.busyEdge p).withData d := by
  cases hq : s.memReq with
  | false =>
    rw [busyEdge_shifting p s hq, busyEdge_shifting p (s.withData d) hq]
    exact shiftEdge_withData d s
  | true =>
    cases ha : p.memAck with
    | false => rw [busyEdge_waiting p s hq ha, busyEdge_waiting p (s.withData d) hq ha]
    | true =>
      rw [busyEdge_answered p s hq ha, busyEdge_answered p (s.withData d) hq ha]
      exact takeByte_withData d p.memRdata s

/-! ### Quiet edges -/

/-- The state one quiet edge later. -/
def State.afterQuietEdge (s : State) : State := if s.busy then s.tick.busyEdge s.quietPins else s.tick

theorem afterQuietEdge_busy (s : State) (h : s.busy = true) :
    s.afterQuietEdge = s.tick.busyEdge s.quietPins := if_pos h

theorem afterQuietEdge_idle (s : State) (h : s.busy = false) : s.afterQuietEdge = s.tick := if_neg (by simp [h])

theorem clockEdge_quiet (s : State) (h : s.wasReset = true) : clockEdge s.quietPins s = .next s.afterQuietEdge := by
  cases hb : s.busy with
  | true => rw [clockEdge_busy s.quietPins s rfl h hb, afterQuietEdge_busy s hb]
  | false => rw [clockEdge_idle s.quietPins s rfl rfl ⟨h, hb⟩, afterQuietEdge_idle s hb]

theorem quietEdges_succ (n : Nat) (s : State) (h : s.wasReset = true) :
    quietEdges (n + 1) s = quietEdges n s.afterQuietEdge := by rw [quietEdges, clockEdge_quiet s h]

theorem afterQuietEdge_frame (s : State) : s.SameFrame s.afterQuietEdge := by
  cases hb : s.busy with
  | true =>
    rw [afterQuietEdge_busy s hb]
    exact { busyEdge_frame s.quietPins s.tick with }
  | false =>
    rw [afterQuietEdge_idle s hb]
    constructor <;> rfl

theorem afterQuietEdge_inv {s : State} (h : s.Inv) : s.afterQuietEdge.Inv := by
  have htick : s.tick.Inv := h.withHost s.host (s.draws + 1)
  cases hb : s.busy with
  | true =>
    rw [afterQuietEdge_busy s hb]
    exact busyEffect_inv htick hb (busyEdge_effect s.quietPins s.tick)
  | false =>
    rw [afterQuietEdge_idle s hb]
    exact htick

/-- The buffer `d` reads as DATA does at every index of the effective window. -/
def State.AgreesInWindow (s : State) (d : Memory) : Prop :=
  ∀ i, s.offset.toNat ≤ i → i < s.window.stop.toNat → Memory.read d i = Memory.read s.data i

theorem State.SameFrame.agreesInWindow {s t : State} {d : Memory} (h : s.SameFrame t) (hd : s.AgreesInWindow d) :
    t.AgreesInWindow d := by
  intro i hlo hhi
  rw [State.window, h.offset, h.length, h.dataLen] at hhi
  rw [h.offset] at hlo
  rw [h.data]
  exact hd i hlo hhi

/-- The byte awaited lies in the window, so a quiet host answers it alike from either buffer. -/
theorem quietEdge_withData {s : State} {d : Memory} (h : s.Inv) (hd : s.AgreesInWindow d) :
    s.tick.busyEdge (s.withData d).quietPins = s.tick.busyEdge s.quietPins := by
  cases hq : s.memReq with
  | false => exact busyEdge_ignores_ack s.quietPins s.tick _ _ hq
  | true =>
    obtain ⟨hlo, hlt, hend⟩ := h.running (h.req_running hq)
    rw [hend, BitVec.lt_def] at hlt
    have hsame : (s.withData d).sampleByte s.idx.toNat = s.sampleByte s.idx.toNat :=
      sampleByte_congr Iff.rfl rfl (hd _ hlo hlt)
    exact congrArg (fun x => s.tick.busyEdge { s.quietPins with memRdata := x }) hsame

theorem afterQuietEdge_withData {s : State} {d : Memory} (h : s.Inv) (hd : s.AgreesInWindow d) :
    (s.withData d).afterQuietEdge = s.afterQuietEdge.withData d := by
  cases hb : s.busy with
  | false => rw [afterQuietEdge_idle s hb, afterQuietEdge_idle (s.withData d) hb]; rfl
  | true =>
    rw [afterQuietEdge_busy s hb, afterQuietEdge_busy (s.withData d) hb, ← quietEdge_withData h hd]
    exact busyEdge_withData d _ s.tick

/-- Quiet edges do not tell two buffers apart that agree in the window. -/
theorem quietEdges_withData (n : Nat) {s t : State} {d : Memory} (h : s.Inv) (hd : s.AgreesInWindow d)
    (ht : quietEdges n s = .next t) : quietEdges n (s.withData d) = .next (t.withData d) := by
  induction n generalizing s with
  | zero =>
    cases ht
    rfl
  | succ n ih =>
    rw [quietEdges_succ n s h.reset_done] at ht
    rw [quietEdges_succ n (s.withData d) h.reset_done, afterQuietEdge_withData h hd]
    exact ih (afterQuietEdge_inv h) ((afterQuietEdge_frame s).agreesInWindow hd) ht

/-- A host write outside the window in progress changes the buffer alone, and there no byte of the window. -/
theorem hostWrite_outside {a : Addr} {b : Byte} {s t : State} (h : s.Inv) (hp : s.phase = .running)
    (ha : a.toNat < s.offset.toNat ∨ s.endIdx.toNat ≤ a.toNat) (ht : hostWrite a b s = .next t) :
    ∃ d, t = s.withData d ∧ s.AgreesInWindow d := by
  obtain ⟨-, rfl⟩ := hostWrite_eq a b s t ht
  obtain ⟨-, -, hend⟩ := h.running hp
  have hout : ¬ s.inRunningWindow a.toNat = true := fun hw => by
    obtain ⟨-, hlo, hhi⟩ := inRunningWindow_eq_true.mp hw
    omega
  refine ⟨Memory.write s.data a.toNat b, by rw [if_neg hout]; rfl, fun i hlo hhi => ?_⟩
  rw [← hend] at hhi
  exact Memory.read_write_of_ne b s.data (by omega)

/-- Settles O58: after the write the RUN is the same with a buffer that agrees in its window. -/
theorem writeOutsideWindowDoesNotAffectRun : Obligations.WriteOutsideWindowDoesNotAffectRun := by
  intro a b s s' t n h hp ha hw ht
  obtain ⟨d, rfl, hd⟩ := hostWrite_outside h hp ha hw
  exact ⟨t.withData d, quietEdges_withData n h hd ht, rfl, rfl, rfl, rfl⟩

end Sys2Proof.Machine
end

section
/-! PROOF. The encoding's statements: decoder, encoder and opcode map agree, and the words of the assembly language are
those of its commands (R60 to R71). -/

namespace Sys2Proof

/-! ### The decoder, the encoder and the opcode map -/

/-- Settles O24: OPC of the word is the command's opcode, and IMM its operand and no other bit. -/
theorem decodeEncode : Obligations.DecodeEncode := decode_encode

/-- Settles O25: a legal word has no bit besides its opcode and its operand. -/
theorem encodeDecode : Obligations.EncodeDecode := fun _ _ h => encode_of_decode h

theorem decode_eq_legal_iff {w : Word} {i : Instr} : decode w = .legal i ↔ w = encode i :=
  ⟨fun h => (encode_of_decode h).symm, fun h => h ▸ decode_encode i⟩

/-- Every command's word selects the row of its mnemonic. -/
theorem encode_selects_row (i : Instr) : Laws.EncodesItsRow.Statement i := by
  cases i with
  | nop => exact Laws.EncodesItsRow.nop
  | init => exact Laws.EncodesItsRow.init
  | byte d => exact Laws.EncodesItsRow.byte d
  | bit x => exact Laws.EncodesItsRow.bit x
  | setofs v => exact Laws.EncodesItsRow.setofs v
  | setlen v => exact Laws.EncodesItsRow.setlen v
  | run c => exact Laws.EncodesItsRow.run c
  | clrerr => exact Laws.EncodesItsRow.clrerr

/-- A word whose bits from `k` on are those of `m` is `m` with the word's low `k` bits: a row's mask leaves out exactly
the operand. -/
theorem eq_or_operand_of_masked (k : Nat) {w m : Word} (h : w &&& (BitVec.allOnes 32 <<< k) = m) :
    m ||| (w.extractLsb' 0 k).setWidth 32 = w := by
  subst h
  apply BitVec.eq_of_getLsbD_eq
  intro i hi
  by_cases hk : i < k
  · simp [hi, hk]
  · simp [hi, hk, -BitVec.reduceAllOnes]

/-- A word that selects a row is the word of a command of that row's mnemonic, the operand being the bits outside the
mask. -/
theorem exists_encode_of_selects {w : Word} {r : OpcodeRow} (hr : r ∈ opcodeMap) (hw : r.selects w = true) :
    ∃ i : Instr, encode i = w ∧ i.mnemonic = r.mnemonic := by
  have masked : w &&& r.mask = r.matchBits := beq_iff_eq.mp hw
  simp only [opcodeMap, List.mem_cons, List.not_mem_nil, or_false] at hr
  rcases hr with rfl | rfl | rfl | rfl | rfl | rfl | rfl | rfl
  · exact ⟨.nop, masked.symm.trans BitVec.and_allOnes, rfl⟩
  · exact ⟨.init, masked.symm.trans BitVec.and_allOnes, rfl⟩
  · exact ⟨.byte (operandD w), eq_or_operand_of_masked 8 masked, rfl⟩
  · exact ⟨.bit (operandBit w), eq_or_operand_of_masked 1 masked, rfl⟩
  · exact ⟨.setofs (operandV w), eq_or_operand_of_masked 24 masked, rfl⟩
  · exact ⟨.setlen (operandV w), eq_or_operand_of_masked 24 masked, rfl⟩
  · exact ⟨.run (operandBit w), eq_or_operand_of_masked 1 masked, rfl⟩
  · exact ⟨.clrerr, masked.symm.trans BitVec.and_allOnes, rfl⟩

theorem row_eq_of_mnemonic_eq : ∀ r ∈ opcodeMap, ∀ q ∈ opcodeMap, r.mnemonic = q.mnemonic → r = q := by decide

/-- Settles O22: a row is selected exactly by the words of its commands, and a word is of one command only. -/
theorem decodeFollowsOpcodeMap : Obligations.DecodeFollowsOpcodeMap := by
  refine ⟨fun w i h => ?_, fun w r hr hw => ?_, fun w r q hr hq hrw hqw => ?_⟩
  · rw [← encode_of_decode h]
    exact encode_selects_row i
  · obtain ⟨i, hi, hm⟩ := exists_encode_of_selects hr hw
    exact ⟨i, decode_eq_legal_iff.mpr hi.symm, hm⟩
  · obtain ⟨i, hi, hir⟩ := exists_encode_of_selects hr hrw
    obtain ⟨j, hj, hjq⟩ := exists_encode_of_selects hq hqw
    have hij : i = j := Decoded.legal.inj <| by rw [← decode_encode i, hi, ← hj, decode_encode j]
    exact row_eq_of_mnemonic_eq r hr q hq (by rw [← hir, hij, hjq])

/-! ### The illegal words -/

/-- The bits of IMM that a sub-format constrains are bits of the word (R59, R60). -/
theorem immOf_extractLsb' (w : Word) (k n : Nat) (h : k + n ≤ 24) :
    (immOf w).extractLsb' k n = w.extractLsb' k n := by
  rw [immOf, BitVec.extractLsb'_extractLsb'_of_le h]

theorem opcode_cases (o : BitVec 8) :
    o = 0x00#8 ∨ o = 0x01#8 ∨ o = 0x02#8 ∨ o = 0x03#8 ∨ o = 0x04#8 ∨ o = 0x05#8 ∨ o = 0x06#8 ∨ o = 0x07#8 ∨
      0x08#8 ≤ o := by
  bv_omega

theorem decode_undefinedOpcode {w : Word} (h : 0x08#8 ≤ opcOf w) : decode w = .illegal .undefinedOpcode := by
  have ne (k : BitVec 8) (hk : k < 0x08#8) : opcOf w ≠ k := by bv_omega
  simp [decode, ne]

/-- The words without a command (R64). -/
theorem decode_illegal_iff (w : Word) : (∃ c, decode w = .illegal c) ↔
    (0x08#8 ≤ opcOf w ∨
     ((opcOf w = 0x00#8 ∨ opcOf w = 0x01#8 ∨ opcOf w = 0x07#8) ∧ w.extractLsb' 0 24 ≠ 0#24) ∨
     (opcOf w = 0x02#8 ∧ w.extractLsb' 8 16 ≠ 0#16) ∨
     ((opcOf w = 0x03#8 ∨ opcOf w = 0x06#8) ∧ w.extractLsb' 1 23 ≠ 0#23)) := by
  have z : reservedZero w = (w.extractLsb' 0 24 == 0#24) := rfl
  have b8 : reservedZeroB8 w = (w.extractLsb' 8 16 == 0#16) := by
    rw [reservedZeroB8, immOf_extractLsb' w 8 16 (by omega)]
  have bit : reservedZeroBit w = (w.extractLsb' 1 23 == 0#23) := by
    rw [reservedZeroBit, immOf_extractLsb' w 1 23 (by omega)]
  rcases opcode_cases (opcOf w) with ho | ho | ho | ho | ho | ho | ho | ho | ho
  · by_cases hz : w.extractLsb' 0 24 = 0#24 <;> simp [decode, ho, z, hz]
  · by_cases hz : w.extractLsb' 0 24 = 0#24 <;> simp [decode, ho, z, hz]
  · by_cases hz : w.extractLsb' 8 16 = 0#16 <;> simp [decode, ho, b8, hz]
  · by_cases hz : w.extractLsb' 1 23 = 0#23 <;> simp [decode, ho, bit, hz]
  · simp [decode, ho]
  · simp [decode, ho]
  · by_cases hz : w.extractLsb' 1 23 = 0#23 <;> simp [decode, ho, bit, hz]
  · by_cases hz : w.extractLsb' 0 24 = 0#24 <;> simp [decode, ho, z, hz]
  · exact iff_of_true ⟨_, decode_undefinedOpcode ho⟩ (.inl ho)

/-! ### The assembly language -/

theorem assemble_of_wellFormed {l : SourceLine} (h : l.wellFormed = true) : l.assemble = some l.words := if_pos h

/-- A line of one word, from its range and the word it has there. -/
theorem assemble_eq_ite {l : SourceLine} {w : Word} (p : Prop) [Decidable p] (hp : l.wellFormed = true ↔ p)
    (hw : p → l.words = [w]) : l.assemble = if p then some [w] else none := by
  by_cases h : p
  · rw [if_pos h, assemble_of_wellFormed (hp.mpr h), hw h]
  · rw [if_neg h, SourceLine.assemble, if_neg (mt hp.mp h)]

/-- A line with an operand: in the range of its width, the operand goes into the word as the number written. -/
theorem assemble_operand {l : SourceLine} {m : Word} {k n : Nat} (p : Prop) [Decidable p]
    (hp : l.wellFormed = true ↔ p) (hk : k ≤ 32) (hn : p → n < 2 ^ k)
    (hw : l.words = [m ||| (BitVec.ofNat k n).setWidth 32]) :
    l.assemble = if p then some [m ||| BitVec.ofNat 32 n] else none :=
  assemble_eq_ite p hp fun h => by rw [hw, BitVec.setWidth_ofNat_of_le_of_lt hk (hn h)]

/-- Settles O26: each line's range is that of its operand's width. -/
theorem assemblyLines : Obligations.AssemblyLines := by
  refine ⟨rfl, rfl, rfl, rfl, rfl, fun d => ?_, fun x => ?_, fun v => ?_, fun v => ?_, fun n => ?_⟩
  · exact assemble_operand (k := 8) _ (decide_eq_true_iff.trans (by omega)) (by omega) (by omega) rfl
  · exact assemble_operand (k := 1) _ (decide_eq_true_iff.trans (by omega)) (by omega) (by omega) rfl
  · exact assemble_operand (k := 24) _ (decide_eq_true_iff.trans (by omega)) (by omega) (by omega) rfl
  · exact assemble_operand (k := 24) _ (decide_eq_true_iff.trans (by omega)) (by omega) (by omega) rfl
  · exact assemble_eq_ite _ (decide_eq_true_iff.trans (by omega)) fun _ => rfl

/-- Settles O27: the text of each line is read, and its word decoded. -/
theorem workedEncodings : Obligations.WorkedEncodings := by
  unfold Obligations.WorkedEncodings
  decide

/-! ### The expansions of the pseudo-instructions -/

theorem assemble_bytes (ds : List Byte) :
    SourceLine.assemble (.bytes (ds.map BitVec.toNat)) = some (ds.map fun d => encode (.byte d)) := by
  rw [assemble_of_wellFormed (by simpa [SourceLine.wellFormed] using fun d _ => d.isLt)]
  simp [SourceLine.words]

theorem assemble_str (text : List Char) (h : ∀ c ∈ text, c.toNat < 128) :
    SourceLine.assemble (.str text) = some (text.map fun c => encode (.byte (BitVec.ofNat 8 c.toNat))) :=
  assemble_of_wellFormed (by simpa [SourceLine.wellFormed] using h)

theorem assemble_bits8 (d : Byte) :
    SourceLine.assemble (.bits8 d.toNat) = some ((bitsMsbFirst d).map fun x => encode (.bit x)) := by
  rw [assemble_of_wellFormed (by simpa [SourceLine.wellFormed] using d.isLt)]
  simp [SourceLine.words]

theorem assemble_win (o n : Addr) :
    SourceLine.assemble (.win o.toNat n.toNat) = some [encode (.setofs o), encode (.setlen n)] := by
  rw [assemble_of_wellFormed (by simpa [SourceLine.wellFormed] using ⟨o.isLt, n.isLt⟩)]
  simp [SourceLine.words]

theorem assemble_crcwin (o n : Addr) : SourceLine.assemble (.crcwin o.toNat n.toNat) =
    some [encode (.setofs o), encode (.setlen n), encode (.run 0#1)] := by
  rw [assemble_of_wellFormed (by simpa [SourceLine.wellFormed] using ⟨o.isLt, n.isLt⟩)]
  simp [SourceLine.words]

end Sys2Proof
end

section
/-! PROOF. What accepting an illegal word does (R64), and what the expansions of the pseudo-instructions compute
(R70). -/

namespace Sys2Proof.Machine

/-! ### An illegal word -/

/-- Settles O23: a step and an accepting edge both raise IllegalCommand (R104). -/
theorem illegalWords : Obligations.IllegalWords := by
  refine ⟨decode_illegal_iff, fun w c s hr h => execWord_illegal w c s hr h, fun p c s hrst hv hr h => ?_⟩
  rw [clockEdge_accept p s hrst hv hr, acceptWord_illegal s.tick h]
  rfl

/-! ### Commands by their words -/

theorem execWord_encode (i : Instr) (s : State) (hr : s.ready) : execWord (encode i) s = exec i s :=
  execWord_legal _ i s hr (decode_encode i)

/-- The words after a command's see all that it left (R101). -/
theorem execWords_encode_cons {i : Instr} {s t : State} (ws : List Word) (hr : s.ready) (h : exec i s = .next t) :
    execWords (encode i :: ws) s = execWords ws t := by
  rw [execWords, execWord_encode i s hr, h]

/-- A sequence of BITs folds its bits into CRC, the first bit first, and changes nothing else. -/
theorem execWords_bits (xs : List (BitVec 1)) (s : State) (hr : s.ready) :
    execWords (xs.map fun x => encode (.bit x)) s = .next { s with crc := xs.foldl updBit s.crc } := by
  induction xs generalizing s with
  | nil => rfl
  | cons x xs ih => exact (execWords_encode_cons _ hr rfl).trans (ih { s with crc := updBit s.crc x } hr)

/-- The words of CRCWIN, under the host's duty to answer (R125). -/
theorem execWords_crcwin (o n : Addr) (s : State) (hr : s.ready) (ha : s.hostAnswers = true) :
    execWords [encode (.setofs o), encode (.setlen n), encode (.run 0#1)] s =
      .next (State.answeredRun 0#1 { s with offset := o, length := n }) :=
  calc execWords [encode (.setofs o), encode (.setlen n), encode (.run 0#1)] s
    _ = execWords [encode (.setlen n), encode (.run 0#1)] { s with offset := o } := execWords_encode_cons _ hr rfl
    _ = execWords [encode (.run 0#1)] { s with offset := o, length := n } := execWords_encode_cons _ hr rfl
    _ = _ := execWords_encode_cons _ hr (exec_run_answered _ _ (.inr ha))

/-! ### The window of a RUN -/

/-- The bytes of the effective window are those of the source's slice, clipped to the buffer's end (R88, R91). -/
theorem windowBytes_window (s : State) :
    s.windowBytes s.window.start.toNat s.window.count.toNat = (s.buffer.drop s.offset.toNat).take s.length.toNat := by
  have count : s.window.count.toNat = min s.length.toNat (s.dataLen.val - s.offset.toNat) := by
    rw [window_count, window_start, State.window, effWindow_stop]
    omega
  have slice (o l n : Nat) : ((List.range n).drop o).take l = List.range' o (min l (n - o)) := by
    rw [List.range_eq_range', List.drop_range', Nat.zero_add, Nat.mul_one]
    rcases Nat.le_total l (n - o) with h | h
    · rw [List.take_range'_of_length_ge h, Nat.min_eq_left h]
    · rw [List.take_range'_of_length_le h, Nat.min_eq_right h]
  rw [State.windowBytes, State.buffer, ← List.map_drop, ← List.map_take, slice, window_start, count]

/-- A RUN that completes leaves the source's function of the buffer and the window registers (R91). -/
theorem answeredRun_crc (s : State) :
    (s.answeredRun 0#1).crc = sourceCrc16 s.buffer s.offset.toNat s.length.toNat := by
  rw [sourceCrc16, ← windowBytes_window]
  rfl

/-- Settles O28: the eight BITs of BITS8 are UpdByte (R78), and the RUN of CRCWIN computes the source's function. -/
theorem pseudoInstructions : Obligations.PseudoInstructions :=
  ⟨assemble_bytes, assemble_str, assemble_bits8, assemble_win, assemble_crcwin,
    fun d s hs => ⟨_, _, _, assemble_bits8 d, execWords_bits _ s hs.1, rfl, updByteSerial_eq_updByte s.crc d⟩,
    fun o n s hr ha => ⟨_, _, assemble_crcwin o n, execWords_crcwin o n s hr ha, answeredRun_crc _⟩⟩

end Sys2Proof.Machine
end

section
/-! PROOF. The datapath's statements: the forms of UpdByte (R74, R76, R78) and the laws of UpdByte and UpdBit (R79). -/

namespace Sys2Proof.Machine

/-- Settles O15: CrcOf is the fold by definition, and the check value is computed. -/
theorem checkValue : Obligations.CheckValue :=
  ⟨fun _ _ _ => rfl, fun _ => rfl, fun _ _ _ => rfl, by decide⟩

/-- Settles O17: gates and table agree with UpdByte bit by bit. -/
theorem gateAndTableForms : Obligations.GateAndTableForms :=
  ⟨updByteGates_eq_updByte, updByteTable_eq_updByte, by decide⟩

/-- Settles O18: bit 7 first the eight shifts are UpdByte, and 0x31 tells that order from the other. -/
theorem bitSerialEqualsByte : Obligations.BitSerialEqualsByte :=
  ⟨fun c d => (updByteSerial_eq_updByte c d).symm, by decide, by decide⟩

/-! ### A wider working value -/

theorem lowByteMask_getLsbD {n : Nat} (x : BitVec n) (i : Nat) :
    (x &&& 0xFF#n).getLsbD i = (decide (i < 8) && x.getLsbD i) := by
  rw [BitVec.getLsbD_and, BitVec.getLsbD_ofNat, show (0xFF : Nat) = 2 ^ 8 - 1 from rfl, Nat.testBit_two_pow_sub_one]
  by_cases hi : i < n
  · simp [hi, Bool.and_comm]
  · simp [BitVec.getLsbD_of_ge x i (by omega)]

/-- Masking a working value of any width is taking its low byte. -/
theorem setWidth_lowByteMask {n : Nat} (x : BitVec n) :
    (x &&& 0xFF#n).setWidth 16 = ((x.setWidth 16).extractLsb' 0 8).setWidth 16 := by
  apply BitVec.eq_of_getLsbD_eq
  intro i hi
  rw [BitVec.getLsbD_setWidth, lowByteMask_getLsbD]
  simp [hi]

/-- The masked byte, shifted down in a working value of any width. -/
theorem setWidth_lowByteMask_ushiftRight {n : Nat} (x : BitVec n) (k : Nat) :
    ((x &&& 0xFF#n) >>> k).setWidth 16 = ((x.setWidth 16).extractLsb' 0 8 >>> k).setWidth 16 := by
  apply BitVec.eq_of_getLsbD_eq
  intro i hi
  rw [BitVec.getLsbD_setWidth, BitVec.getLsbD_ushiftRight, lowByteMask_getLsbD]
  by_cases hk : k + i < 8
  · simp [hi, hk, show k + i < 16 by omega]
  · simp [hk]

/-- Bits from 16 on never come down: no step of R73 reads them (R74). -/
theorem updByteWide_setWidth {n : Nat} (hn : 16 ≤ n) (c : BitVec n) (d : Byte) :
    (updByteWide c d).setWidth 16 = updByte (c.setWidth 16) d := by
  simp only [updByteWide, updByte, BitVec.setWidth_xor, BitVec.setWidth_shiftLeft_of_le hn, setWidth_lowByteMask,
    setWidth_lowByteMask_ushiftRight, BitVec.setWidth_setWidth_of_le _ hn, BitVec.setWidth_eq, ← BitVec.shiftLeft_add,
    Nat.reduceAdd]

/-- Settles O16: every byte step keeps the low 16 bits those of UpdByte. -/
theorem wideWorkingValue : Obligations.WideWorkingValue := by
  intro n c s hn
  induction s generalizing c with
  | nil => rfl
  | cons d s ih => rw [crcOfWide, ih, updByteWide_setWidth hn, crcOf]

/-! ### The laws of UpdByte and UpdBit -/

theorem swapBytes_xor (a b : Crc) : swapBytes (a ^^^ b) = swapBytes a ^^^ swapBytes b := by
  rw [swapBytes, BitVec.extractLsb'_xor, BitVec.extractLsb'_xor, ← BitVec.xor_append]
  rfl

/-- A map of the form `x ^ L(x)` is linear where `L` is. -/
theorem xor_self_map {L : Crc → Crc} (hL : ∀ x y, L (x ^^^ y) = L x ^^^ L y) (x y : Crc) :
    x ^^^ y ^^^ L (x ^^^ y) = (x ^^^ L x) ^^^ (y ^^^ L y) := by
  rw [hL]
  ac_rfl

/-- UpdByte is linear: steps 2b to 2d of R73 each add a linear map of the working value to it. -/
theorem updByte_xor (c₁ c₂ : Crc) (d₁ d₂ : Byte) :
    updByte (c₁ ^^^ c₂) (d₁ ^^^ d₂) = updByte c₁ d₁ ^^^ updByte c₂ d₂ := by
  have b : swapBytes (c₁ ^^^ c₂) ^^^ (d₁ ^^^ d₂).setWidth 16 =
      (swapBytes c₁ ^^^ d₁.setWidth 16) ^^^ (swapBytes c₂ ^^^ d₂.setWidth 16) := by
    rw [swapBytes_xor, BitVec.setWidth_xor]
    ac_rfl
  have t := xor_self_map (L := fun b => (b.extractLsb' 0 8 >>> 4).setWidth 16) fun x y => by
    rw [BitVec.extractLsb'_xor, BitVec.ushiftRight_xor_distrib, BitVec.setWidth_xor]
  have u := xor_self_map (L := fun t => t <<< 12) fun x y => BitVec.shiftLeft_xor_distrib x y 12
  have e := xor_self_map (L := fun u => (u.extractLsb' 0 8).setWidth 16 <<< 5) fun x y => by
    rw [BitVec.extractLsb'_xor, BitVec.setWidth_xor, BitVec.shiftLeft_xor_distrib]
  dsimp only [updByte] at t u e ⊢
  rw [b, t, u, e]
/-- The low bytes of the table's entries are all different. -/
theorem crcTable_low_injective : Function.Injective fun x => (crcTable x).extractLsb' 0 8 :=
  Finite.injective_iff_surjective.mpr (Function.RightInverse.surjective crcTable_lowByteInverse)

/-- The low byte of the result tells the high byte of CRC, and then the high byte tells the low one. -/
theorem updByte_bijective (d : Byte) : Function.Bijective fun c : Crc => updByte c d := by
  refine Finite.injective_iff_bijective.mp fun c c' h => ?_
  change updByte c d = updByte c' d at h
  rw [← updByteTable_eq_updByte, ← updByteTable_eq_updByte, updByteTable, updByteTable] at h
  have low := congrArg (BitVec.extractLsb' 0 8) h
  rw [xor_shiftLeft_low, xor_shiftLeft_low] at low
  have index := crcTable_low_injective low
  have high := congrArg (BitVec.extractLsb' 8 8) h
  rw [index, xor_shiftLeft_high, xor_shiftLeft_high] at high
  exact crc_eq_of_bytes_eq c c' ((BitVec.xor_right_inj _).mp high) ((BitVec.xor_left_inj d).mp index)

/-- Bit 0 of the result tells bit 15 of CRC, and then every bit of the result the one below it of CRC. -/
theorem updBit_bijective (x : BitVec 1) : Function.Bijective fun c : Crc => updBit c x := by
  refine Finite.injective_iff_bijective.mp fun c c' h => ?_
  change updBit c x = updBit c' x at h
  have bit (i : Nat) (hi : i < 16) := by
    have := congrArg (·.getLsbD i) h
    simpa only [updBit_getLsbD _ _ i hi] using this
  have top : c.getLsbD 15 = c'.getLsbD 15 := by simpa using bit 0 (by omega)
  apply BitVec.eq_of_getLsbD_eq
  intro i hi
  rcases Nat.lt_or_ge i 15 with h15 | h15
  · have next := bit (i + 1) (by omega)
    rw [top] at next
    simpa using next
  · rwa [show i = 15 by omega]

theorem crcOf_append (c : Crc) (s t : List Byte) : crcOf c (s ++ t) = crcOf (crcOf c s) t := by
  induction s generalizing c with
  | nil => rfl
  | cons d s ih => exact ih (updByte c d)

/-- A byte equal to the high byte of CRC cancels it. -/
theorem updByte_highByte (r : Crc) : updByte r (r.extractLsb' 8 8) = r.extractLsb' 0 8 ++ 0x00#8 := by
  have h := updByte_eq_crcTable r 0x00#8
  rw [BitVec.xor_zero, show crcTable 0x00#8 = 0x0000#16 by decide, BitVec.zero_xor] at h
  rw [h]
  exact BitVec.shiftLeft_eq_concat_of_lt (by omega)

/-- The two bytes of CRC, high byte first, take it to 0. -/
theorem updByte_ownBytes (r : Crc) : updByte (updByte r (r.extractLsb' 8 8)) (r.extractLsb' 0 8) = 0x0000#16 := by
  have h := updByte_highByte (r.extractLsb' 0 8 ++ 0x00#8)
  rw [BitVec.extractLsb'_append_eq_left, BitVec.extractLsb'_append_eq_right] at h
  rw [updByte_highByte, h]
  rfl

/-- Settles O19, law by law. -/
theorem updateLaws : Obligations.UpdateLaws := by
  refine ⟨updByte_xor, by decide, fun c d => ?_, updByte_bijective, updBit_bijective, crcOf_append,
    fun r => ⟨updByte_highByte r, updByte_ownBytes r⟩, fun s => ?_⟩
  · rw [← updByte_xor, BitVec.xor_zero, BitVec.zero_xor]
  · rw [crcOf_append]
    exact updByte_ownBytes _

end Sys2Proof.Machine
end

section
/-! PROOF. INIT, BYTE and BIT (R80 to R82), and BYTE at the signals on either datapath (R84). -/

namespace Sys2Proof.Machine

/-! ### The commands -/

/-- A word that R64 names illegal only sets ERR (R104). -/
theorem execWord_setsErr {w : Word} {s : State} (hr : s.ready) (h : ∃ c, decode w = .illegal c) :
    execWord w s = .next { s with err := true } := by
  obtain ⟨c, hc⟩ := h
  exact execWord_illegal w c s hr hc

/-- Settles O3: the one legal word is the encoder's, and the accepting edge executes the command. -/
theorem initCommand : Obligations.InitCommand := by
  refine ⟨fun s => rfl, fun w => decode_eq_legal_iff, fun w s hr ho himm => ?_, fun p s hp hr => ?_⟩
  · exact execWord_setsErr hr ((decode_illegal_iff w).mpr (.inr (.inl ⟨.inr (.inl ho), himm⟩)))
  · obtain ⟨hrst, hv, hw⟩ := hp
    rw [clockEdge_accept_legal p s .init hrst hv hr (by rw [hw, decode_encode])]
    rfl

/-- A BYTE that completes changes CRC and nothing else, hidden registers apart: BUSY is 0 then, and was between steps. -/
theorem completeByte_forgetHidden (c : Crc) (s : State) (hb : s.busy = false) :
    (s.completeByte c).forgetHidden = { s.forgetHidden with crc := c } := by
  cases s
  cases hb
  rfl

/-- Settles O4: BYTE completes in its step with UpdByte in CRC. -/
theorem byteCommand : Obligations.ByteCommand := by
  refine ⟨fun d s hs => ?_, fun w d => decode_eq_legal_iff, fun w s hr ho himm => ?_, by decide⟩
  · exact ⟨_, rfl, completeByte_forgetHidden _ s hs.1.2, rfl, rfl⟩
  · exact execWord_setsErr hr ((decode_illegal_iff w).mpr (.inr (.inr (.inl ⟨ho, himm⟩))))

/-- Settles O5: the eight BITs fold the bits of the byte one by one, which is UpdByte (R78). -/
theorem bitCommand : Obligations.BitCommand := by
  refine ⟨fun x s => rfl, fun w x => decode_eq_legal_iff, fun w s hr ho himm => ?_, by decide, by decide, by decide,
    by decide, fun d s hs => ⟨_, _, execWords_bits _ s hs.1, rfl, ?_⟩⟩
  · exact execWord_setsErr hr ((decode_illegal_iff w).mpr (.inr (.inr (.inr ⟨.inl ho, himm⟩))))
  · rw [completeByte_forgetHidden _ s hs.1.2, ← updByteSerial_eq_updByte]
    rfl

/-! ### BYTE at the signals -/

theorem clockEdges_cons {p : Pins} {s t : State} (ps : List Pins) (h : clockEdge p s = .next t) :
    clockEdges (p :: ps) s = clockEdges ps t := by rw [clockEdges, h]

/-- A BYTE in progress on the bit-serial datapath. -/
structure State.ByteInProgress (s : State) : Prop where
  reset_done : s.wasReset = true
  busy : s.busy = true
  idle : s.phase = .idle
  no_request : s.memReq = false

/-- Short of the last bit the counter does not wrap. -/
theorem toNat_succ_of_ne_seven {n : BitVec 3} (h : n ≠ 7#3) : (n + 1#3).toNat = n.toNat + 1 := by bv_omega

/-- An edge takes one bit in, whatever it carries but a reset. -/
theorem clockEdge_byteInProgress {q : Pins} {s : State} (h : s.ByteInProgress) (hq : q.rst = false) :
    clockEdge q s = .next s.tick.shiftEdge := by
  rw [clockEdge_busy q s hq h.reset_done h.busy, busyEdge_shifting q s.tick h.no_request]

/-- A BYTE in progress completes with the edge of its last bit, every bit that is left taken in. -/
theorem clockEdges_byteInProgress (ps : List Pins) (s : State) (h : s.ByteInProgress)
    (hn : ps.length + s.bitCount.toNat = 8) (hps : ∀ q ∈ ps, q.rst = false) :
    ∃ t, clockEdges ps s = .next t ∧
      t.forgetHidden = (s.completeByte (shiftIn ps.length s.acc s.shiftByte)).forgetHidden := by
  induction ps generalizing s with
  | nil =>
    have := s.bitCount.isLt
    simp only [List.length_nil] at hn
    omega
  | cons q qs ih =>
    have hedge := clockEdge_byteInProgress h (hps q List.mem_cons_self)
    rw [List.length_cons] at hn
    by_cases hc : s.bitCount = 7#3
    · obtain rfl : qs = [] := List.eq_nil_of_length_eq_zero (by rw [hc, BitVec.toNat_ofNat] at hn; omega)
      rw [shiftEdge_last s.tick hc, byteShifted_idle _ s.tick h.idle] at hedge
      exact ⟨_, clockEdges_cons [] hedge, rfl⟩
    · rw [shiftEdge_inner s.tick hc] at hedge
      rw [clockEdges_cons qs hedge]
      refine ih _ ⟨h.reset_done, h.busy, h.idle, h.no_request⟩ ?_ fun p hp => hps p (List.mem_cons_of_mem q hp)
      change qs.length + (s.bitCount + 1#3).toNat = 8
      rw [toNat_succ_of_ne_seven hc]
      omega

/-- Settles O54: byte-parallel the accepting edge completes the BYTE, bit-serial it starts the eight shifts that do. -/
theorem byteRefinesOnEitherDatapath : Obligations.ByteRefinesOnEitherDatapath := by
  intro d s p ps hs hpres hps hparallel hserial
  obtain ⟨hready, hp, hq, -⟩ := hs
  obtain ⟨hrst, hv, hw⟩ := hpres
  have hedge : clockEdge p s = acceptByte d s.tick :=
    clockEdge_accept_legal p s (.byte d) hrst hv hready (by rw [hw, decode_encode])
  cases hd : s.datapath with
  | byteParallel =>
    rw [acceptByte_byteParallel d s.tick hd] at hedge
    rw [hparallel hd]
    exact ⟨_, _, clockEdges_cons [] hedge, rfl, rfl⟩
  | bitSerial =>
    rw [acceptByte_bitSerial d s.tick hd] at hedge
    have hlen := hserial hd
    obtain ⟨t, ht, hf⟩ := clockEdges_byteInProgress ps (s.tick.startByte d) ⟨hready.1, rfl, hp, hq⟩
      (by rw [hlen]; rfl) hps
    refine ⟨t, _, (clockEdges_cons ps hedge).trans ht, rfl, hf.trans ?_⟩
    rw [hlen, shiftIn_eight]
    rfl

end Sys2Proof.Machine
end

section
/-! PROOF. The window sequencer: SETOFS, SETLEN and RUN (R86 to R94). -/

namespace Sys2Proof.Machine

/-! ### The effective window -/

/-- The count is the length, clipped to the bytes remaining (R88, R92). -/
theorem effWindow_count_eq_min (o l : Addr) (n : DataLen) :
    (effWindow o l n).count.toNat = min l.toNat (n.val - o.toNat) := by
  rw [effWindow_count, effWindow_start, effWindow_stop]
  omega

/-- The windows without a byte (R92); with DATA_LEN = 0 every OFFSET is past the end. -/
theorem effWindow_count_eq_zero_iff (o l : Addr) (n : DataLen) :
    (effWindow o l n).count = 0#25 ↔ n.val ≤ o.toNat ∨ l = 0#24 := by
  rw [← BitVec.toNat_inj, ← BitVec.toNat_inj, effWindow_count_eq_min, BitVec.toNat_ofNat, BitVec.toNat_ofNat]
  omega

/-- Settles O9: the 25-bit sum does not wrap, so the window is the clipped range. -/
theorem effectiveWindow : Obligations.EffectiveWindow := by
  intro o l n
  refine ⟨effWindow_start o l n, effWindow_stop o l n, ?_, fun i => ?_⟩
  · rw [effWindow_count, effWindow_start, effWindow_stop]
    split <;> omega
  · rw [List.mem_range'_1, effWindow_start, effWindow_count_eq_min]
    omega

/-! ### SETOFS and SETLEN -/

/-- Settles O6: any IMM is an operand, and an OFFSET past the end leaves no byte. -/
theorem setofsCommand : Obligations.SetofsCommand :=
  ⟨fun _ _ => rfl, fun _ _ => decode_eq_legal_iff, fun w ho => by simp [decode, ho, operandV],
    fun v s hv => (effWindow_count_eq_zero_iff v s.length s.dataLen).mpr (.inl hv)⟩

/-- Settles O7: any IMM is an operand, and the count is the smaller of LENGTH and the bytes remaining. -/
theorem setlenCommand : Obligations.SetlenCommand := by
  refine ⟨fun _ _ => rfl, fun _ _ => decode_eq_legal_iff, fun w ho => by simp [decode, ho, operandV],
    fun s => (effWindow_count_eq_zero_iff s.offset 0#24 s.dataLen).mpr (.inr rfl), fun v s _ hv => ?_⟩
  rw [effWindow_count_eq_min, Nat.min_eq_right hv.le]

/-! ### What RUN leaves -/

/-- RUN answers a next state whatever the window and the host, and keeps the frame of a command in progress. -/
theorem exec_run_frame (c : BitVec 1) (s : State) : ∃ t, exec (.run c) s = .next t ∧ s.SameFrame t := by
  by_cases h : s.window.count = 0#25 ∨ s.hostAnswers = true
  · exact ⟨_, exec_run_answered c s h, by constructor <;> rfl⟩
  · exact ⟨_, exec_run_unanswered c s h, by constructor <;> rfl⟩

/-- A RUN that completes changes CRC and the requests and nothing else, hidden registers apart: between steps nothing is
in progress, requested or disturbed, and after it nothing is. -/
theorem answeredRun_forgetHidden (c : BitVec 1) (s : State) (hs : s.betweenSteps) :
    (s.answeredRun c).forgetHidden =
      { s.forgetHidden with crc := (s.answeredRun c).crc, requests := (s.answeredRun c).requests } := by
  obtain ⟨⟨-, hb⟩, hp, hq, hraced⟩ := hs
  cases s
  cases hb
  cases hp
  cases hq
  cases hraced
  rfl

/-- A RUN that completes folds the source's slice of the buffer into what it starts from (R91). -/
theorem answeredRun_crc_eq (c : BitVec 1) (s : State) :
    (s.answeredRun c).crc = crcOf (s.runSeed c) ((s.buffer.drop s.offset.toNat).take s.length.toNat) :=
  congrArg (crcOf (s.runSeed c)) (windowBytes_window s)

theorem answeredRun_crc_of_empty (c : BitVec 1) (s : State) (h : s.window.count = 0#25) :
    (s.answeredRun c).crc = s.runSeed c := by
  rw [State.answeredRun, h]
  rfl

theorem answeredRun_requests_of_empty (c : BitVec 1) (s : State) (h : s.window.count = 0#25) :
    (s.answeredRun c).requests = s.requests := by
  rw [State.answeredRun, h]
  rfl

/-- Settles O8: under the host's duty, or on an empty window, RUN completes in its step. -/
theorem runCommand : Obligations.RunCommand := by
  refine ⟨fun c s hs h => ?_, fun w c => decode_eq_legal_iff, fun w s hr ho himm => ?_, fun c s h => ?_⟩
  · exact ⟨_, exec_run_answered c s h, answeredRun_forgetHidden c s hs⟩
  · exact execWord_setsErr hr ((decode_illegal_iff w).mpr (.inr (.inr (.inr ⟨.inr ho, himm⟩))))
  · exact ⟨_, exec_run_answered c s (.inl h), answeredRun_crc_of_empty c s h, answeredRun_requests_of_empty c s h⟩

/-- An index of the window is its 24-bit address: it is inside the buffer (R43, R44). -/
theorem window_addresses_toNat (s : State) :
    ((List.range' s.window.start.toNat s.window.count.toNat).map (BitVec.ofNat 24)).map BitVec.toNat =
      List.range' s.window.start.toNat s.window.count.toNat := by
  rw [List.map_map]
  refine (List.map_congr_left fun i hi => ?_).trans (List.map_id _)
  obtain ⟨hlo, hhi⟩ := List.mem_range'_1.mp hi
  have hcount := window_count s
  have hstop := window_stop_le s
  have := s.dataLen.isLt
  exact Nat.mod_eq_of_lt (by omega)

/-- Settles O10: the requests a RUN adds are the addresses of its window. -/
theorem runReadsWindowOnce : Obligations.RunReadsWindowOnce := by
  intro c s h
  refine ⟨_, _, exec_run_answered c s h, ?_, ?_, fun a => window_index_lt s, fun hw => by rw [hw]; rfl⟩
  · rw [State.answeredRun, List.reverse_append, List.reverse_reverse]
  · rw [window_addresses_toNat, window_count]

/-! ### The source's function -/

/-- SETOFS, SETLEN and a RUN, at the head of a sequence of words, under the host's duty to answer (R101, R125). -/
theorem execWords_windowRun (c : BitVec 1) (o n : Addr) (ws : List Word) (s : State) (hr : s.ready)
    (ha : s.hostAnswers = true) :
    execWords (encode (.setofs o) :: encode (.setlen n) :: encode (.run c) :: ws) s =
      execWords ws (State.answeredRun c { s with offset := o, length := n }) :=
  calc execWords (encode (.setofs o) :: encode (.setlen n) :: encode (.run c) :: ws) s
    _ = execWords (encode (.setlen n) :: encode (.run c) :: ws) { s with offset := o } :=
      execWords_encode_cons _ hr rfl
    _ = execWords (encode (.run c) :: ws) { s with offset := o, length := n } := execWords_encode_cons _ hr rfl
    _ = _ := execWords_encode_cons _ hr (exec_run_answered _ _ (.inr ha))

/-- A window and the one that starts at its end give the CRC of their union (R79, R91). -/
theorem crcOf_adjacent_windows (data : List Byte) (o n m : Nat) :
    crcOf (sourceCrc16 data o n) ((data.drop (o + n)).take m) = sourceCrc16 data o (n + m) := by
  rw [sourceCrc16, sourceCrc16, ← crcOf_append, List.take_add, List.drop_drop]

/-- Settles O11: RUN folds the source's slice, RUN.C goes on from CRC, and adjacent slices are one slice. -/
theorem runComputesSourceFunction : Obligations.RunComputesSourceFunction := by
  refine ⟨fun s ha => ⟨_, exec_run_answered _ s (.inr ha), answeredRun_crc s⟩,
    fun s ha => ⟨_, exec_run_answered _ s (.inr ha), answeredRun_crc_eq _ s⟩, fun s o n m hr ha hon hm _ => ?_⟩
  have toNat {k : Nat} (hk : k < 2 ^ 24) : (BitVec.ofNat 24 k).toNat = k := Nat.mod_eq_of_lt hk
  have first := answeredRun_crc { s with offset := BitVec.ofNat 24 o, length := BitVec.ofNat 24 n }
  rw [toNat (show o < 2 ^ 24 by omega), toNat (show n < 2 ^ 24 by omega)] at first
  refine ⟨_, (execWords_windowRun _ _ _ _ s hr ha).trans (execWords_windowRun _ _ _ [] _ ⟨hr.1, rfl⟩ ha), ?_⟩
  rw [answeredRun_crc_eq, toNat hon, toNat hm, State.runSeed, if_pos rfl, first]
  exact crcOf_adjacent_windows s.buffer o n m

/-! ### Clipping, repetition, exceptions -/

/-- A LENGTH at or past the bytes remaining takes the rest of the buffer (R92). -/
theorem answeredRun_crc_of_clipped (c : BitVec 1) (s : State) (h : s.dataLen.val - s.offset.toNat ≤ s.length.toNat) :
    (s.answeredRun c).crc = crcOf (s.runSeed c) (s.buffer.drop s.offset.toNat) := by
  rw [answeredRun_crc_eq, List.take_of_length_le (by simpa [State.buffer] using h)]

/-- Settles O12: an empty window leaves what RUN starts from, and a clipped one takes the rest of the buffer. -/
theorem windowClipping : Obligations.WindowClipping := by
  refine ⟨fun s h => ?_, fun c s ha ho hl => ?_⟩
  · have hw : s.window.count = 0#25 := (effWindow_count_eq_zero_iff s.offset s.length s.dataLen).mpr <| by
      rcases h with ho | hl | hn
      · exact .inl ho
      · exact .inr hl
      · exact .inl (by omega)
    exact ⟨hw, ⟨_, exec_run_answered _ s (.inl hw), answeredRun_crc_of_empty _ s hw⟩,
      ⟨_, exec_run_answered _ s (.inl hw), answeredRun_crc_of_empty _ s hw⟩⟩
  · have clipped : s.dataLen.val - s.offset.toNat ≤ s.length.toNat := by omega
    have remaining : (BitVec.ofNat 24 (s.dataLen.val - s.offset.toNat)).toNat = s.dataLen.val - s.offset.toNat :=
      Nat.mod_eq_of_lt (clipped.trans_lt s.length.isLt)
    exact ⟨(effWindow_count_eq_min _ _ _).trans (Nat.min_eq_right clipped), _, _,
      exec_run_answered c s (.inr ha), exec_run_answered c _ (.inr ha),
      (answeredRun_crc_of_clipped c s clipped).trans
        (answeredRun_crc_of_clipped c { s with length := BitVec.ofNat 24 _ } remaining.ge).symm⟩

/-- Settles O13: RUN keeps the window registers and the buffer, and with C = 0 it starts from INIT. -/
theorem runIsRepeatable : Obligations.RunIsRepeatable := by
  refine ⟨fun c s t h => ?_, fun s ha => ⟨_, _, exec_run_answered _ s (.inr ha), exec_run_answered _ _ (.inr ha), ?_⟩⟩
  · obtain ⟨u, hu, hframe⟩ := exec_run_frame c s
    cases hu.symm.trans h
    exact ⟨hframe.offset, hframe.length⟩
  · rw [answeredRun_crc, answeredRun_crc]
    rfl

/-- Settles O14: ERR is in the frame that RUN keeps. -/
theorem runRaisesNothing : Obligations.RunRaisesNothing := by
  intro c s
  obtain ⟨t, ht, hframe⟩ := exec_run_frame c s
  exact ⟨t, ht, hframe.err⟩

end Sys2Proof.Machine
end

section
/-! PROOF. The control commands NOP and CLRERR (R96, R97), and the port: ERR blocks nothing (R100), words complete in
order (R101), and every word is accepted (R102). -/

namespace Sys2Proof.Machine

/-! ### NOP and CLRERR -/

/-- Settles O1: the one legal word is the encoder's, and the accepting edge only passes a cycle. -/
theorem nopCommand : Obligations.NopCommand := by
  refine ⟨fun s => rfl, fun w => decode_eq_legal_iff, fun w s hr ho himm => ?_, fun p s hp hr => ?_⟩
  · exact execWord_setsErr hr ((decode_illegal_iff w).mpr (.inr (.inl ⟨.inl ho, himm⟩)))
  · obtain ⟨hrst, hv, hw⟩ := hp
    rw [clockEdge_accept_legal p s .nop hrst hv hr (by rw [hw, decode_encode])]
    rfl

/-- Settles O2: the one legal word is the encoder's, and any other word with OPC 0x07 raises IllegalCommand. -/
theorem clrerrCommand : Obligations.ClrerrCommand := by
  refine ⟨fun s => rfl, fun w => decode_eq_legal_iff, fun w s hr ho himm => ?_⟩
  exact execWord_setsErr hr ((decode_illegal_iff w).mpr (.inr (.inl ⟨.inr (.inr ho), himm⟩)))

/-! ### ERR blocks nothing -/

/-- A command other than CLRERR neither reads nor writes ERR: with another ERR it answers the same but for ERR (R100). -/
theorem exec_withErr {i : Instr} (s : State) {t : State} (b : Bool) (hi : i ≠ .clrerr) (h : exec i s = .next t) :
    exec i { s with err := b } = .next { t with err := b } := by
  cases i with
  | clrerr => exact absurd rfl hi
  | run c =>
    by_cases hc : s.window.count = 0#25 ∨ s.hostAnswers = true
    · rw [exec_run_answered c s hc] at h
      cases h
      exact exec_run_answered c { s with err := b } hc
    · rw [exec_run_unanswered c s hc] at h
      cases h
      exact exec_run_unanswered c { s with err := b } hc
  | _ =>
    cases h
    rfl

/-- Settles O32: CLRERR alone touches ERR, and it overwrites it. -/
theorem errBlocksNothing : Obligations.ErrBlocksNothing := by
  refine ⟨fun i s t hi h => exec_withErr { s with err := false } true hi h, fun s => rfl, fun i s t h hs ht => ?_⟩
  rcases commandEffect_err (exec_effect h) with hkept | ⟨hi, -⟩
  · simp [hkept, hs] at ht
  · exact hi

/-! ### Sequences of words -/

theorem execWords_cons {w : Word} {s t : State} (ws : List Word) (h : execWord w s = .next t) :
    execWords (w :: ws) s = execWords ws t := by rw [execWords, h]

/-- While a command is in progress no word of a sequence is taken (R123). -/
theorem execWords_busy (ws : List Word) (s : State) (hr : s.wasReset = true) (hb : s.busy = true) :
    execWords ws s = .next s := by
  induction ws with
  | nil => rfl
  | cons w ws ih => rw [execWords_cons ws (execWord_busy w s hr hb), ih]

/-- The later words of a sequence see the whole effect of the earlier ones (R101). -/
theorem execWords_append {ws : List Word} (us : List Word) {s t : State} (h : execWords ws s = .next t) :
    execWords (ws ++ us) s = execWords us t := by
  induction ws generalizing s with
  | nil =>
    cases h
    rfl
  | cons w ws ih =>
    obtain ⟨u, hu, -⟩ := execWord_sameConfig w s
    rw [execWords_cons ws hu] at h
    rw [List.cons_append, execWords_cons (ws ++ us) hu, ih h]

/-- A sequence of one command's word is that command. -/
theorem execWords_encode (i : Instr) (s : State) (hr : s.ready) : execWords [encode i] s = exec i s := by
  obtain ⟨t, ht, -⟩ := exec_sameConfig i s
  rw [execWords_encode_cons [] hr ht, ht, execWords]

/-- Settles O34: a busy block accepts nothing, and a sequence passes on the state from word to word. -/
theorem commandsCompleteInOrder : Obligations.CommandsCompleteInOrder := by
  refine ⟨fun p s hr ha => ?_, execWords_busy, fun ws us s t h => execWords_append us h, fun v c s hr => ?_⟩
  · by_contra hb
    simp [commandAccepted_busy p s hr (by simpa using hb)] at ha
  · exact (execWords_encode_cons [encode (.run c)] hr rfl).trans (execWords_encode (.run c) { s with offset := v } hr)

/-! ### Acceptance -/

/-- Settles O40: neither the word nor the state keeps a ready block from accepting; after reset the window is empty. -/
theorem everyWordIsAccepted : Obligations.EveryWordIsAccepted := by
  refine ⟨fun p s hrst hv hr => ⟨?_, ?_⟩, fun w s => ?_, ?_, fun d => ⟨_, rfl, rfl⟩⟩
  · rw [commandAccepted_ready p s hrst hr, hv]
  · obtain ⟨t, ht, -⟩ := clockEdge_sameConfig p s
    exact ⟨t, ht⟩
  · obtain ⟨t, ht, -⟩ := execWord_sameConfig w s
    exact ⟨t, ht⟩
  · have hw : State.reset.window.count = 0#25 := (effWindow_count_eq_zero_iff 0#24 0#24 _).mpr (.inr rfl)
    exact ⟨_, exec_run_answered 0#1 State.reset (.inl hw), answeredRun_crc_of_empty 0#1 State.reset hw⟩

end Sys2Proof.Machine
end

section
/-! PROOF. The one exception: IllegalCommand sets ERR only (R104), each cause raises it (R105), and no legal command
does (R103). -/

namespace Sys2Proof.Machine

/-- Settles O29: `setErr` is the whole effect, in a step and on the accepting edge. -/
theorem illegalCommandSetsOnlyErr : Obligations.IllegalCommandSetsOnlyErr :=
  fun w c s hr h => ⟨execWord_illegal w c s hr h, acceptWord_illegal s h⟩

/-- Settles O30: each cause is a clause of R64's description of the illegal words. -/
theorem illegalCauses : Obligations.IllegalCauses := by
  intro w s hr
  refine ⟨fun hundefined => ?_, fun hz himm => ?_, fun hb8 himm => ?_, fun hb1 himm => ?_, fun hr1 himm => ?_⟩ <;>
    refine execWord_setsErr hr ((decode_illegal_iff w).mpr ?_)
  · exact .inl hundefined
  · exact .inr (.inl ⟨hz, himm⟩)
  · exact .inr (.inr (.inl ⟨hb8, himm⟩))
  · exact .inr (.inr (.inr ⟨.inl hb1, himm⟩))
  · exact .inr (.inr (.inr ⟨.inr hr1, himm⟩))

/-- Settles O31: a command answers a next state, and its effect keeps ERR, or is CLRERR's and leaves it 0. -/
theorem legalCommandsNeverSetErr : Obligations.LegalCommandsNeverSetErr := by
  intro i s
  obtain ⟨t, ht, -⟩ := exec_sameConfig i s
  refine ⟨t, ht, fun herr => ?_⟩
  rcases commandEffect_err (exec_effect ht) with hkept | ⟨-, hcleared⟩
  · exact hkept.symm.trans herr
  · simp [hcleared] at herr

end Sys2Proof.Machine
end

section
/-! PROOF. Reset: nothing is specified before the first edge with `rst` = 1 (R121), and such an edge brings the block into
the invariant and gives the registers their reset values, whatever it was doing (R117 to R119, R131). -/

namespace Sys2Proof.Machine

/-- Settles O35: before the first reset edge an edge and a word both leave `State.unspecified`. -/
theorem nothingIsSpecifiedBeforeReset : Obligations.NothingIsSpecifiedBeforeReset := by
  refine ⟨rfl, ⟨_, rfl, rfl, rfl, rfl, rfl⟩, fun p w s hr hrst => ?_, fun p s hr => ?_⟩
  · refine ⟨_, clockEdge_unreset p s hrst hr, execWord_unreset w s hr, hr, rfl, rfl, rfl, rfl, rfl, rfl, ?_,
      rfl, rfl, rfl, rfl, rfl, rfl⟩
    cases hp : (Config.freeRegisters s.draws).running <;> simp [State.unspecified, hp]
  · exact ⟨output_unreset s _ _ hr, output_unreset s _ _ hr, output_unreset s _ _ hr, output_unreset s _ _ hr,
      output_unreset s _ _ hr, output_unreset s _ _ hr⟩

/-- After a reset edge nothing is in progress, requested or disturbed. -/
theorem resetEdge_betweenSteps (s : State) : s.resetEdge.betweenSteps := ⟨⟨rfl, rfl⟩, rfl, rfl, rfl⟩

/-- Settles O36: a reset edge leaves the block between two steps, and the buffer and the requests as they were. -/
theorem bootReachesInvariant : Obligations.BootReachesInvariant := by
  have boot (p : Pins) (s : State) (hrst : p.rst = true) (hwf : Memory.wf s.data)
      (hdata : ∀ x ∈ s.data, x.1 < s.dataLen.val) (hreqs : ∀ a ∈ s.requests, a.toNat < s.dataLen.val) :
      ∃ t, clockEdge p s = .next t ∧ t.Inv ∧ t.betweenSteps :=
    have between := resetEdge_betweenSteps s
    ⟨_, clockEdge_reset p s hrst, .of_betweenSteps between hwf hdata hreqs, between⟩
  exact ⟨fun p hrst => boot p State.powerUp hrst reset_data_wf nofun nofun, boot⟩

/-- Settles O38: a reset edge writes every register, and the ready block it leaves lets an idle edge pass. -/
theorem resetWinsOverEverything : Obligations.ResetWinsOverEverything := fun p s hrst =>
  ⟨_, clockEdge_reset p s hrst, rfl, fun q hq hv => clockEdge_idle q _ hq hv (resetEdge_betweenSteps s).1⟩

/-- The words of a byte stream fold its bytes into CRC, the first byte first. -/
theorem execWords_bytes (ds : List Byte) (s : State) (hr : s.ready) :
    ∃ t, execWords (ds.map fun d => encode (.byte d)) s = .next t ∧ t.crc = crcOf s.crc ds := by
  induction ds generalizing s with
  | nil => exact ⟨s, rfl, rfl⟩
  | cons d ds ih =>
    obtain ⟨t, ht, hcrc⟩ := ih (s.completeByte (updByte s.crc d)) ⟨hr.1, rfl⟩
    exact ⟨t, (execWords_encode_cons _ hr rfl).trans ht, hcrc⟩

/-- Settles O39: INIT gives CRC the value it has after reset. -/
theorem byteStreamAfterReset : Obligations.ByteStreamAfterReset := by
  intro ds
  have hr : State.reset.ready := ⟨rfl, rfl⟩
  obtain ⟨t, ht, hcrc⟩ := execWords_bytes ds State.reset hr
  exact ⟨t, t, ht, hcrc, (execWords_encode_cons _ hr rfl).trans ht, rfl⟩

end Sys2Proof.Machine
end

section
/-! PROOF. Unanswered and answered reads (R125, R129): a RUN whose read is never answered hangs, and one whose reads are
answered at once completes. The idea of the second: with every quiet edge the number of edges that are left goes down. -/

namespace Sys2Proof.Machine

/-! ### A read that is never answered -/

/-- Edges that answer nothing pass their cycles and leave the request waiting (R35). -/
theorem clockEdges_unanswered (ps : List Pins) (s : State) (hr : s.wasReset = true) (hb : s.busy = true)
    (hq : s.memReq = true) (hps : ∀ p ∈ ps, p.rst = false ∧ p.memAck = false) :
    clockEdges ps s = .next { s with draws := s.draws + ps.length } := by
  induction ps generalizing s with
  | nil => rfl
  | cons p ps ih =>
    obtain ⟨hrst, hack⟩ := hps p List.mem_cons_self
    have hedge : clockEdge p s = .next s.tick := by
      rw [clockEdge_busy p s hrst hr hb, busyEdge_waiting p s.tick hq hack]
    rw [clockEdges_cons ps hedge, ih s.tick hr hb hq fun q h => hps q (List.mem_cons_of_mem p h), List.length_cons,
      ← Nat.add_assoc, Nat.add_right_comm]
    rfl

/-- Settles O53: edges without an answer only pass, and a RUN that gets none waits for its first. -/
theorem unansweredReadHangs : Obligations.UnansweredReadHangs := by
  refine ⟨fun ps s hr hb hq hps => ?_, fun c s hw ha => ?_⟩
  · exact ⟨_, clockEdges_unanswered ps s hr hb hq hps, rfl, fun p => commandAccepted_busy p _ hr hb⟩
  · exact ⟨_, exec_run_unanswered c s (by simp [hw, ha]), rfl, rfl, rfl⟩

/-! ### The edges that are left of a RUN -/

/-- How many quiet edges a RUN in progress takes at most: nine a byte, one of them the answer to its request. -/
def State.edgesLeft (s : State) : Nat :=
  if s.memReq then 9 * (s.endIdx.toNat - s.idx.toNat)
  else 9 * (s.endIdx.toNat - (s.idx.toNat + 1)) + (8 - s.bitCount.toNat)

theorem edgesLeft_waiting {s : State} (hq : s.memReq = true) :
    s.edgesLeft = 9 * (s.endIdx.toNat - s.idx.toNat) := if_pos hq

theorem edgesLeft_shifting {s : State} (hq : s.memReq = false) :
    s.edgesLeft = 9 * (s.endIdx.toNat - (s.idx.toNat + 1)) + (8 - s.bitCount.toNat) := if_neg (by simp [hq])

/-- A RUN in progress has an edge left. -/
theorem edgesLeft_pos {s : State} (h : s.RunInProgress) : 0 < s.edgesLeft := by
  have hlt := BitVec.lt_def.mp h.inside
  have hbits := s.bitCount.isLt
  cases hq : s.memReq with
  | true => rw [edgesLeft_waiting hq]; omega
  | false => rw [edgesLeft_shifting hq]; omega

/-- Fewer than `n` edges are left of the RUN, if it is still in progress. -/
def State.NearerThan (s : State) (n : Nat) : Prop := s.busy = true → s.edgesLeft < n

/-- The end of a byte leaves nine edges for each byte behind it. -/
theorem advance_nearer (r : Crc) (s : State) (h : s.idx < s.endIdx) {n : Nat}
    (hn : 9 * (s.endIdx.toNat - (s.idx.toNat + 1)) < n) : (s.advance r).NearerThan n := by
  by_cases hi : s.idx + 1#25 < s.endIdx
  · rw [advance_next r s hi]
    rw [← toNat_succ_of_lt h] at hn
    exact fun _ => hn
  · rw [advance_runDone r s hi]
    exact nofun

theorem takeByte_nearer (d : Byte) (s : State) (h : s.idx < s.endIdx) (hq : s.memReq = true) :
    (s.takeByte d).NearerThan s.edgesLeft := by
  rw [edgesLeft_waiting hq]
  rw [BitVec.lt_def] at h
  cases hd : s.datapath with
  | byteParallel =>
    rw [takeByte_byteParallel d s hd]
    exact advance_nearer _ s h (by omega)
  | bitSerial =>
    rw [takeByte_bitSerial d s hd]
    intro _
    rw [edgesLeft_shifting rfl]
    change 9 * (s.endIdx.toNat - (s.idx.toNat + 1)) + 8 < _
    omega

theorem shiftEdge_nearer (s : State) (h : s.RunInProgress) (hq : s.memReq = false) :
    s.shiftEdge.NearerThan s.edgesLeft := by
  have hlt := s.bitCount.isLt
  rw [edgesLeft_shifting hq]
  by_cases hc : s.bitCount = 7#3
  · rw [shiftEdge_last s hc, byteShifted_running _ s h.running]
    exact advance_nearer _ s h.inside (by omega)
  · rw [shiftEdge_inner s hc]
    intro _
    have hnext := toNat_succ_of_ne_seven hc
    refine (edgesLeft_shifting ?_).trans_lt ?_
    · exact hq
    · dsimp only
      omega

/-- An edge on which a pending read is answered brings the RUN nearer to its end. -/
theorem busyEdge_nearer {p : Pins} {s : State} (h : s.RunInProgress) (ha : s.memReq = true → p.memAck = true) :
    (s.busyEdge p).NearerThan s.edgesLeft := by
  cases hq : s.memReq with
  | true =>
    rw [busyEdge_answered p s hq (ha hq)]
    exact takeByte_nearer _ s h.inside hq
  | false =>
    rw [busyEdge_shifting p s hq]
    exact shiftEdge_nearer s h hq

/-! ### Quiet edges complete a RUN -/

/-- The host keeps its duties of R124 and R125: it answers every read, and has disturbed no byte. -/
structure State.HostIsDutiful (s : State) : Prop where
  answers : s.hostAnswers = true
  undisturbed : s.raced = []

/-- A quiet edge under a dutiful host answers a read with the byte of DATA. -/
theorem quietPins_honest {s : State} (h : s.HostIsDutiful) : s.quietPins.honest s :=
  ⟨rfl, fun _ _ => if_neg (by simp [h.undisturbed])⟩

theorem busyEffect_raced {s t : State} (h : s.BusyEffect t) (hs : s.raced = []) : t.raced = [] := by
  cases h with
  | runDone => rfl
  | _ => exact hs

theorem busyEdge_hostIsDutiful (p : Pins) {s : State} (h : s.HostIsDutiful) : (s.busyEdge p).HostIsDutiful :=
  ⟨(busyEdge_frame p s).hostAnswers.trans h.answers, busyEffect_raced (busyEdge_effect p s) h.undisturbed⟩

/-- A quiet edge keeps what the RUN ends with and brings it nearer. -/
theorem afterQuietEdge_leadsTo {s r : State} (h : s.RunInProgress) (hf : s.runResult.forgetHidden = r.forgetHidden)
    (hs : s.HostIsDutiful) :
    s.afterQuietEdge.LeadsTo r ∧ s.afterQuietEdge.HostIsDutiful ∧ s.afterQuietEdge.NearerThan s.edgesLeft := by
  have htick : s.tick.RunInProgress := ⟨h.reset_done, h.busy, h.running, h.inside⟩
  rw [afterQuietEdge_busy s h.busy]
  refine ⟨?_, busyEdge_hostIsDutiful _ ⟨hs.answers, hs.undisturbed⟩, busyEdge_nearer htick fun hq => ?_⟩
  · have hf' : s.tick.runResult.forgetHidden = r.forgetHidden := hf
    exact (busyEdge_leadsTo s.quietPins s.tick htick (quietPins_honest hs)).imp
      (.imp_right (·.trans hf')) (.imp_right (·.trans hf'))
  · exact Bool.and_eq_true_iff.mpr ⟨hq, hs.answers⟩

/-- Quiet edges complete the RUN, within the edges that are left of it. -/
theorem quietEdges_complete (m : Nat) {s r : State} (h : s.LeadsTo r) (hs : s.HostIsDutiful)
    (hm : s.NearerThan (m + 1)) :
    ∃ n t, n ≤ m ∧ quietEdges n s = .next t ∧ t.busy = false ∧ t.forgetHidden = r.forgetHidden := by
  induction m generalizing s with
  | zero =>
    rcases h with ⟨hb, hf⟩ | ⟨hrun, -⟩
    · exact ⟨0, s, Nat.le_refl 0, rfl, hb, hf⟩
    · exact absurd (edgesLeft_pos hrun) (Nat.not_lt.mpr (Nat.le_of_lt_succ (hm hrun.busy)))
  | succ m ih =>
    rcases h with ⟨hb, hf⟩ | ⟨hrun, hf⟩
    · exact ⟨0, s, Nat.zero_le _, rfl, hb, hf⟩
    · obtain ⟨hlead, hdutiful, hnearer⟩ := afterQuietEdge_leadsTo hrun hf hs
      have hleft := hm hrun.busy
      obtain ⟨n, t, hn, ht, hb, hf⟩ := ih hlead hdutiful fun hb => (hnearer hb).trans_le (Nat.le_of_lt_succ hleft)
      exact ⟨n + 1, t, Nat.succ_le_succ hn, (quietEdges_succ n s hrun.reset_done).trans ht, hb, hf⟩

/-- The edge that accepts a RUN leaves nine edges a byte of its window, and the host as dutiful as it was. -/
theorem clockEdge_run_nearer {c : BitVec 1} {s t : State} {p : Pins} (hr : s.ready) (hs : s.HostIsDutiful)
    (hp : p.presents (.run c)) (h : clockEdge p s = .next t) :
    t.HostIsDutiful ∧ t.NearerThan (9 * s.window.count.toNat + 1) := by
  obtain ⟨hrst, hv, hword⟩ := hp
  have hd : decode p.cmdWord = .legal (.run c) := by rw [hword, decode_encode]
  rw [clockEdge_accept_legal p s _ hrst hv hr hd] at h
  cases acceptInstr_effect h with
  | runDone => exact ⟨⟨hs.answers, rfl⟩, nofun⟩
  | runStarted =>
    refine ⟨⟨hs.answers, rfl⟩, fun _ => ?_⟩
    rw [edgesLeft_waiting rfl, window_count]
    exact Nat.lt_succ_self _

/-- Settles O56: what the RUN ends with is kept, and its quiet edges are counted down from nine a byte. -/
theorem answeredRunCompletes : Obligations.AnsweredRunCompletes := by
  intro c s s₁ p hs ha hp hedge
  obtain ⟨hr, -, -, hraced⟩ := hs
  obtain ⟨hdutiful, hnearer⟩ := clockEdge_run_nearer hr ⟨ha, hraced⟩ hp hedge
  obtain ⟨n, t, hn, ht, hb, hf⟩ := quietEdges_complete _ (clockEdge_run_leadsTo hr hp hedge) hdutiful hnearer
  exact ⟨n, t, _, hn, ht, hb, exec_run_answered c s (.inr ha), hf⟩

end Sys2Proof.Machine
end

section
/-! PROOF. What R132 observes of a sequence. The words of a sequence only add to the record of requests, and
neither what the record holds nor what the host has pending matters to them, so the observation of the sequence is
`execWords` with the record started again. -/

namespace Sys2Proof.Machine

/-! ### A finished sequence -/

/-- The state with other pending actions and another record of requests. -/
def State.withRecord (pending : List HostAction) (reqs : List Addr) (s : State) : State :=
  { s with host := pending, requests := reqs }

/-- A ready block, under a host that answers. -/
structure State.ReadyAnswered (s : State) : Prop where
  ready : s.ready
  answers : s.hostAnswers = true

theorem step_presented (w : Word) (rest : List HostAction) (reqs : List Addr) {s : State} (hr : s.ready) :
    step (s.withRecord (.present w :: rest) reqs) = execWord w (s.withRecord rest reqs) :=
  step_present_ready (s.withRecord (.present w :: rest) reqs) w rest rfl hr

/-- Under a host that answers, a word completes in its step; what it leaves, and the indices `read` that it requests, do
not depend on the record or the pending actions. -/
theorem execWord_withRecord (w : Word) {s : State} (h : s.ReadyAnswered) :
    ∃ (t : State) (read : List Addr), execWord w s = .next t ∧ t.ReadyAnswered ∧ t.requests = read.reverse ++ s.requests ∧
      ∀ pending reqs, execWord w (s.withRecord pending reqs) = .next (t.withRecord pending (read.reverse ++ reqs)) := by
  have hr (pending reqs) : (s.withRecord pending reqs).ready := h.ready
  cases hd : decode w with
  | illegal c =>
    exact ⟨_, [], execWord_illegal w c s h.ready hd, ⟨h.ready, h.answers⟩, rfl,
      fun pending reqs => execWord_illegal w c _ (hr pending reqs) hd⟩
  | legal i =>
    simp only [execWord_legal w i s h.ready hd, fun pending reqs => execWord_legal w i _ (hr pending reqs) hd]
    cases i with
    | run c =>
      exact ⟨_, _, exec_run_answered c s (.inr h.answers), ⟨⟨h.ready.1, rfl⟩, h.answers⟩, rfl,
        fun _ _ => exec_run_answered c _ (.inr h.answers)⟩
    | byte d => exact ⟨_, [], rfl, ⟨⟨h.ready.1, rfl⟩, h.answers⟩, rfl, fun _ _ => rfl⟩
    | _ => exact ⟨_, [], rfl, ⟨h.ready, h.answers⟩, rfl, fun _ _ => rfl⟩

/-- With nothing pending, a ready block is observed as it stands. -/
theorem endObservation_withRecord {s : State} (reqs : List Addr) (hr : s.ready) :
    (s.withRecord [] reqs).endObservation = some ⟨s.crc, s.err, reqs.reverse⟩ :=
  (outputsShowRegisters.2 (s.withRecord [] reqs) hr.1).2 hr.2 rfl

/-- Past its first word the rest of a sequence is observed as `execWords` leaves it, and what it requests is added. -/
theorem observeBegun_words (ws : List Word) {s t : State} (h : s.ReadyAnswered) (ht : execWords ws s = .next t) :
    ∃ read : List Addr, t.requests = read.reverse ++ s.requests ∧ ∀ reqs,
      observeBegun ws.length (s.withRecord (ws.map .present) reqs) = some ⟨t.crc, t.err, reqs.reverse ++ read⟩ := by
  induction ws generalizing s with
  | nil =>
    cases ht
    refine ⟨[], rfl, fun reqs => ?_⟩
    rw [List.append_nil]
    exact endObservation_withRecord reqs h.ready
  | cons w ws ih =>
    obtain ⟨u, read₁, hu, hready, hreq₁, hrecord⟩ := execWord_withRecord w h
    rw [execWords_cons ws hu] at ht
    obtain ⟨read₂, hreq₂, hobs⟩ := ih hready ht
    refine ⟨read₁ ++ read₂, by rw [hreq₂, hreq₁, List.reverse_append, List.append_assoc], fun reqs => ?_⟩
    have hstep := (step_presented w (ws.map .present) reqs h.ready).trans (hrecord _ reqs)
    rw [List.length_cons, List.map_cons, observeBegun_step _ _ _ rfl hstep, hobs]
    simp

/-- A sequence whose first word the next step takes is observed from there. -/
theorem observe_begun {s : State} {w : Word} (n : Nat) (h : s.takesWord w) :
    observe (n + 1) s = observeBegun (n + 1) s.beginSequence := by
  rw [observe, h]
  rfl

/-- A ready block takes the first word presented. -/
theorem observe_presented (n : Nat) (w : Word) (ws : List Word) {s : State} (hr : s.ready) :
    observe (n + 1) { s with host := (w :: ws).map .present } =
      observeBegun (n + 1) (s.withRecord ((w :: ws).map .present) []) :=
  observe_begun n (wordTaken_present { s with host := (w :: ws).map .present } w (ws.map .present) rfl hr)

/-! ### No observation -/

theorem endObservation_eq_none {s : State} (h : s.busy = true ∨ s.host.any HostAction.hasWord = true) :
    s.endObservation = none := by
  refine if_neg fun ⟨hr, hdone⟩ => ?_
  rcases h with hb | hw
  · simp [hr.2] at hb
  · simp [hdone] at hw

/-- Past its first word a sequence has no observation while a reset edge is pending with a word behind it: before the edge
the word is pending too, and the edge itself ends the observation. -/
theorem observeBegun_pending_reset (n : Nat) {before rest : List HostAction} {p : Pins} {s : State}
    (hh : s.host = before ++ .edge p :: rest) (hrst : p.rst = true) (hw : rest.any HostAction.hasWord = true) :
    observeBegun n s = none := by
  induction n generalizing s before with
  | zero => exact endObservation_eq_none (.inr (by simp [hh, hw]))
  | succ n ih =>
    cases hreset : s.resetTaken with
    | true => exact observeBegun_reset n s hreset
    | false =>
      cases hst : step s with
      | next t =>
        rw [observeBegun_step n s t hreset hst]
        rcases step_host s t hst with hkept | htail
        · exact ih (hkept.trans hh)
        · cases before with
          | nil => simp [resetTaken_edge s p rest hh, hrst] at hreset
          | cons a before => exact ih (before := before) (by rw [htail, hh]; rfl)
      | fault r => simp [observeBegun, hreset, hst]
      | refused r => simp [observeBegun, hreset, hst]

/-- A read is outstanding that the host does not answer, and the words `ws` are all that it has pending. -/
structure State.HangsUnder (s : State) (ws : List Word) : Prop where
  reset_done : s.wasReset = true
  busy : s.busy = true
  request : s.memReq = true
  unanswered : s.hostAnswers = false
  pending : s.host = ws.map .present

/-- A block that hangs only passes a cycle: the host holds its next word, or presents nothing (R123, R125). -/
theorem step_hangs {s : State} {ws : List Word} (h : s.HangsUnder ws) : step s = .next s.tick := by
  have hack : s.quietPins.memAck = false := by simp [State.quietPins, h.unanswered]
  have hedge (p : Pins) (hrst : p.rst = false) (hp : p.memAck = false) : clockEdge p s = .next s.tick := by
    rw [clockEdge_busy p s hrst h.reset_done h.busy, busyEdge_waiting p s.tick h.request hp]
  cases ws with
  | nil => exact (step_quiet s h.pending).trans (hedge s.quietPins rfl hack)
  | cons w ws =>
    exact (step_present_busy s w (ws.map .present) h.pending h.reset_done h.busy).trans (hedge (s.holdPins w) rfl hack)

theorem observeBegun_hangs (n : Nat) {s : State} {ws : List Word} (h : s.HangsUnder ws) : observeBegun n s = none := by
  induction n generalizing s with
  | zero => exact endObservation_eq_none (.inl h.busy)
  | succ n ih =>
    have hreset : s.resetTaken = false := by
      rw [State.resetTaken, h.pending]
      cases ws <;> rfl
    rw [observeBegun_step n s s.tick hreset (step_hangs h)]
    exact ih ⟨h.reset_done, h.busy, h.request, h.unanswered, h.pending⟩

/-- A RUN that is not answered hangs, with the words behind it still pending. -/
theorem observeBegun_run_unanswered (n : Nat) (c : BitVec 1) (ws : List Word) {s : State} (hr : s.ready)
    (hw : s.window.count ≠ 0#25) (ha : s.hostAnswers = false) :
    observeBegun (n + 1) (s.withRecord ((encode (.run c) :: ws).map .present) []) = none := by
  have hstep : step (s.withRecord ((encode (.run c) :: ws).map .present) []) =
      .next ((s.withRecord (ws.map .present) []).startRun c) :=
    calc step (s.withRecord ((encode (.run c) :: ws).map .present) [])
      _ = execWord (encode (.run c)) (s.withRecord (ws.map .present) []) := step_presented _ _ _ hr
      _ = exec (.run c) (s.withRecord (ws.map .present) []) := execWord_encode _ _ hr
      _ = _ := exec_run_unanswered c _ fun h => h.elim hw (ne_true_of_eq_false ha)
  rw [observeBegun_step n _ _ rfl hstep]
  exact observeBegun_hangs n (ws := ws) ⟨hr.1, rfl, rfl, ha, rfl⟩

/-- Settles O59: a sequence is observed from its first word on, up to a reset edge or a read that is never answered. -/
theorem observationOfSequence : Obligations.ObservationOfSequence := by
  refine ⟨fun ws s t hne hs ha ht => ?_, fun s h => endObservation_eq_none h,
    fun n w p before rest s hw hh hrst hrest => ?_, fun n c ws s hs hcount ha => ?_⟩
  · obtain ⟨read, hreq, hobs⟩ := observeBegun_words ws ⟨hs.1, ha⟩ ht
    refine ⟨read, hreq, ?_⟩
    cases ws with
    | nil => exact absurd rfl hne
    | cons w ws =>
      exact (observe_presented ws.length w ws hs.1).trans (hobs [])
  · cases n with
    | zero => rfl
    | succ n =>
      rw [observe_begun n hw]
      exact observeBegun_pending_reset (n + 1) (s := s.beginSequence) hh hrst hrest
  · cases n with
    | zero => rfl
    | succ n =>
      exact (observe_presented n _ ws hs.1).trans (observeBegun_run_unanswered n c ws hs.1 hcount ha)

end Sys2Proof.Machine
end

section
/-! PROOF. The words that V-E1 writes out: a legal one is the encoder's word of its command, and an illegal one has a
nonzero IMM where sub-format Z wants 0, or an undefined opcode (R62 to R64). -/

namespace Sys2Proof

/-- An operand where sub-format Z has none: the opcodes of NOP, INIT and CLRERR. -/
theorem decode_reservedBits_z {w : Word} (ho : opcOf w = 0x00#8 ∨ opcOf w = 0x01#8 ∨ opcOf w = 0x07#8)
    (hm : immOf w ≠ 0#24) : decode w = .illegal (.reservedBits .z) := by
  have hz : reservedZero w = false := beq_eq_false_iff_ne.mpr hm
  rcases ho with ho | ho | ho <;> simp [decode, ho, hz]

/-- Settles O21: the eight legal words are the encoder's, two have a bit set that Z reserves, and one has OPC 0xFF. -/
theorem specWordsDecode : Obligations.SpecWordsDecode := by
  have legal (i : Instr) {w : Word} (hw : w = encode i) : decode w = .legal i := decode_eq_legal_iff.mpr hw
  exact ⟨legal .nop rfl, legal .init rfl, legal (.byte 0x31#8) rfl, legal (.bit 1#1) rfl,
    legal (.setofs 0xFFFFFF#24) rfl, legal (.setlen 9#24) rfl, legal (.run 1#1) rfl, legal .clrerr rfl,
    decode_reservedBits_z (.inl rfl) (by decide), decode_reservedBits_z (.inr (.inl rfl)) (by decide),
    decode_undefinedOpcode (by decide)⟩

end Sys2Proof
end
